-- ==== Sys2Proof/Word.lean ====
section
/-! DEFINITION. The words of the machine: bytes, the 16-bit operand fields, the 80-bit descriptor
(spec/30_encoding.md R100), and the names of the environment's error values. -/

namespace Sys2Proof

/-- A byte, bit 7 the most significant (spec/00_scope.md R10). -/
abbrev Byte := BitVec 8

/-- A 16-bit operand field of a descriptor, and the width of `W` and `H` (R35, R36, R100). -/
abbrev Half := BitVec 16

/-- A request descriptor, bit 0 the least significant (R100). -/
abbrev Desc := BitVec 80

/-- An environment error value, the type `E` of R9: opaque, "never inspected or retried by the core".
A number is used as a name only. DESIGN CHOICE, log entry 4. -/
abbrev ErrVal := Nat

end Sys2Proof
end

