-- ==== Sys2Proof/Config.lean ====
section
/-! DEFINITION. The implementation parameters of spec/00_scope.md R9. Those that are fixed for the machine are constants
here: table sizes, widths, limits and stage masks. `OPC` (spec/30_encoding.md R121) and `CATALOG` (R122) are a
`CommandTable`, an argument of the decoder, the encoder and every sequence, which stands with the two reset holds in
`Sys2Proof.Machine.State` (log entries 10 to 12); the defaults of all four are here. -/

namespace Sys2Proof

/-! ### The Command Catalog -/

/-- The commands of the Command Catalog by name: the fifteen the operations emit (R121), then the six of R122. -/
inductive Command where
  | driverOutputControl
  | boosterSoftStartControl
  | dataEntryModeSetting
  | masterActivation
  | displayUpdateControl2
  | writeRam
  | writeVcomRegister
  | writeLutRegister
  | setDummyLinePeriod
  | setGateLineWidth
  | setRamXAddressStartEndPosition
  | setRamYAddressStartEndPosition
  | setRamXAddressCounter
  | setRamYAddressCounter
  | nop
  | gateScanStartPosition
  | deepSleepMode
  | swReset
  | temperatureSensorControl
  | displayUpdateControl1
  | borderWaveformControl
  deriving DecidableEq, Repr

/-- The commands that the engine's operations emit (R121). -/
def Command.emitted : List Command :=
  [.driverOutputControl, .boosterSoftStartControl, .dataEntryModeSetting, .masterActivation, .displayUpdateControl2,
   .writeRam, .writeVcomRegister, .writeLutRegister, .setDummyLinePeriod, .setGateLineWidth,
   .setRamXAddressStartEndPosition, .setRamYAddressStartEndPosition, .setRamXAddressCounter, .setRamYAddressCounter,
   .nop]

/-- The commands that no composite operation emits (R122). -/
def Command.raw : List Command :=
  [.gateScanStartPosition, .deepSleepMode, .swReset, .temperatureSensorControl, .displayUpdateControl1,
   .borderWaveformControl]

/-- Every command. -/
def Command.all : List Command := Command.emitted ++ Command.raw

/-- The payload length of R121: none for a bare command, and for the six of R122, whose payloads are not specified;
WriteRam's is the buffer's, from 0 on. -/
def Command.payloadLength : Command → Option Nat
  | .driverOutputControl => some 3
  | .boosterSoftStartControl => some 3
  | .dataEntryModeSetting => some 1
  | .masterActivation => none
  | .displayUpdateControl2 => some 1
  | .writeRam => some 0
  | .writeVcomRegister => some 1
  | .writeLutRegister => some 30
  | .setDummyLinePeriod => some 1
  | .setGateLineWidth => some 1
  | .setRamXAddressStartEndPosition => some 2
  | .setRamYAddressStartEndPosition => some 4
  | .setRamXAddressCounter => some 1
  | .setRamYAddressCounter => some 2
  | .nop => none
  | .gateScanStartPosition => none
  | .deepSleepMode => none
  | .swReset => none
  | .temperatureSensorControl => none
  | .displayUpdateControl1 => none
  | .borderWaveformControl => none

/-- The parameters `OPC` and `CATALOG` (R9, R121, R122): the opcode byte of each command, and the opcodes the raw
operations accept. -/
structure CommandTable where
  driverOutputControl : Byte
  boosterSoftStartControl : Byte
  dataEntryModeSetting : Byte
  masterActivation : Byte
  displayUpdateControl2 : Byte
  writeRam : Byte
  writeVcomRegister : Byte
  writeLutRegister : Byte
  setDummyLinePeriod : Byte
  setGateLineWidth : Byte
  setRamXAddressStartEndPosition : Byte
  setRamYAddressStartEndPosition : Byte
  setRamXAddressCounter : Byte
  setRamYAddressCounter : Byte
  nop : Byte
  gateScanStartPosition : Byte
  deepSleepMode : Byte
  swReset : Byte
  temperatureSensorControl : Byte
  displayUpdateControl1 : Byte
  borderWaveformControl : Byte
  catalog : List Byte
  deriving DecidableEq, Repr

/-- `OPC.<command>` (R121, R122). -/
def CommandTable.opcode (c : CommandTable) : Command → Byte
  | .driverOutputControl => c.driverOutputControl
  | .boosterSoftStartControl => c.boosterSoftStartControl
  | .dataEntryModeSetting => c.dataEntryModeSetting
  | .masterActivation => c.masterActivation
  | .displayUpdateControl2 => c.displayUpdateControl2
  | .writeRam => c.writeRam
  | .writeVcomRegister => c.writeVcomRegister
  | .writeLutRegister => c.writeLutRegister
  | .setDummyLinePeriod => c.setDummyLinePeriod
  | .setGateLineWidth => c.setGateLineWidth
  | .setRamXAddressStartEndPosition => c.setRamXAddressStartEndPosition
  | .setRamYAddressStartEndPosition => c.setRamYAddressStartEndPosition
  | .setRamXAddressCounter => c.setRamXAddressCounter
  | .setRamYAddressCounter => c.setRamYAddressCounter
  | .nop => c.nop
  | .gateScanStartPosition => c.gateScanStartPosition
  | .deepSleepMode => c.deepSleepMode
  | .swReset => c.swReset
  | .temperatureSensorControl => c.temperatureSensorControl
  | .displayUpdateControl1 => c.displayUpdateControl1
  | .borderWaveformControl => c.borderWaveformControl

/-- What R121 and R122 require of the parameters: "the four source values and pairwise distinctness", and the fifteen
values in CATALOG. That the six of R122 are distinct from these and from each other is DESIGN CHOICE, log entry 26. -/
def CommandTable.legal (c : CommandTable) : Bool :=
  decide (c.driverOutputControl = 0x01#8) && decide (c.masterActivation = 0x20#8) &&
  decide (c.writeRam = 0x24#8) && decide (c.nop = 0xFF#8) &&
  decide (Command.all.map c.opcode).Nodup && Command.emitted.all (fun k => c.catalog.contains (c.opcode k))

/-- The command of an opcode byte, if one has it. -/
def CommandTable.commandOf (c : CommandTable) (op : Byte) : Option Command :=
  Command.all.find? fun k => decide (c.opcode k = op)

namespace Config

/-! ### Values -/

/-- `LUT_LEN`: "waveform tables are always exactly 30 bytes" (R9). -/
def lutLen : Nat := 30

/-- `VAL9_BITS`: width of gate-count and Y values on the wire (R9, R16). -/
abbrev val9Bits : Nat := 9

/-- `GATE_MODE_BYTE`: third byte of DriverOutputControl (R9, R125). -/
def gateModeByte : Byte := 0x00#8

/-- Default of `T_RST_LOW_MS` (R9). -/
def tRstLowDefault : Half := 10#16

/-- Default of `T_RST_HIGH_MS` (R9). -/
def tRstHighDefault : Half := 10#16

/-- Least legal value of either reset hold (R9: legal 10..65535; the upper bound is the width). -/
def tRstMin : Nat := 10

/-- `MASK_POWER_ON` (R134). -/
def maskPowerOn : Byte := 0xC0#8

/-- `MASK_UPDATE_FULL` (R134). -/
def maskUpdateFull : Byte := 0xC7#8

/-- `MASK_UPDATE_PARTIAL` (R134). -/
def maskUpdatePartial : Byte := 0x04#8

/-- `MASK_POWER_OFF` (R134). -/
def maskPowerOff : Byte := 0xC3#8

/-- The display-pattern stage of a stage mask, bit 2 (R133; read by the ghost UPD_WINDOW only, R47). -/
def patternBit : Nat := 2

/-- `W_MAX` (R9, R37). -/
def wMax : Nat := 2040

/-- `H_MAX` (R9, R37). -/
def hMax : Nat := 511

/-- Bytes in a profile image (R106). -/
def profileLen : Nat := 71

/-- The default of `OPC` and `CATALOG` (R121, R122): four opcodes are source values, the other eleven and the six
further members of CATALOG are PRESUMED by the spec, log entries 10 and 11. -/
def commands : CommandTable where
  driverOutputControl := 0x01#8
  boosterSoftStartControl := 0x0C#8
  dataEntryModeSetting := 0x11#8
  masterActivation := 0x20#8
  displayUpdateControl2 := 0x22#8
  writeRam := 0x24#8
  writeVcomRegister := 0x2C#8
  writeLutRegister := 0x32#8
  setDummyLinePeriod := 0x3A#8
  setGateLineWidth := 0x3B#8
  setRamXAddressStartEndPosition := 0x44#8
  setRamYAddressStartEndPosition := 0x45#8
  setRamXAddressCounter := 0x4E#8
  setRamYAddressCounter := 0x4F#8
  nop := 0xFF#8
  gateScanStartPosition := 0x0F#8
  deepSleepMode := 0x10#8
  swReset := 0x12#8
  temperatureSensorControl := 0x1A#8
  displayUpdateControl1 := 0x21#8
  borderWaveformControl := 0x3C#8
  catalog :=
    [0x01#8, 0x0C#8, 0x11#8, 0x20#8, 0x22#8, 0x24#8, 0x2C#8, 0x32#8, 0x3A#8, 0x3B#8, 0x44#8, 0x45#8, 0x4E#8, 0x4F#8,
     0xFF#8, 0x0F#8, 0x10#8, 0x12#8, 0x1A#8, 0x21#8, 0x3C#8]

end Config

end Sys2Proof
end

