-- ==== Sys2Proof/Syntax.lean ====
section
/-! DEFINITION. The syntax of the two encodings (spec/30_encoding.md): the request a host presents (R100), the
panel profile an INIT carries (R106), the command transfer the engine makes on the controller port (R110), and
`Instr`, one constructor per row of spec/opcode_table.json. -/

namespace Sys2Proof

/-- A request: the 80-bit descriptor and the byte buffer (R100). -/
structure Request where
  desc : Desc
  buf : List Byte
  deriving DecidableEq, Repr

/-- A Panel Profile with the fields of R106. -/
structure Profile where
  w : Half
  h : Half
  ss0 : Byte
  ss1 : Byte
  ss2 : Byte
  vcom : Byte
  dummy : Byte
  gate : Byte
  entry : Byte
  lutF : List Byte
  lutP : List Byte
  deriving DecidableEq, Repr

/-- The payload of a command transfer: `none` for a transfer made by `Cmd` (a bare opcode, DC never high),
`some p` for one made by `CmdString` with payload bytes `p`, possibly empty (R110, R142). -/
abbrev Payload := Option (List Byte)

/-- A command transfer on the controller port (R110). -/
structure Transfer where
  opcode : Byte
  payload : Payload
  deriving DecidableEq, Repr

/-- The instructions: the fourteen host operations of R101, then the twenty-one controller commands of R121 and
R122, each of the latter with the payload of its transfer. -/
inductive Instr where
  | init (p : Profile)
  | setDisplayArea (xs xe ys ye : Half)
  | loadFullLut
  | loadPartialLut
  | loadImage (buf : List Byte)
  | powerOn
  | updateFull
  | updatePartial
  | powerOff
  | showFullScreenImage (buf : List Byte)
  | loadPartialImage (xs xw ys yh : Half) (buf : List Byte)
  | writeCmd (op : Byte)
  | writeData (b : Byte)
  | writeCmdString (op : Byte) (buf : List Byte)
  | driverOutputControl (p : Payload)
  | boosterSoftStartControl (p : Payload)
  | dataEntryModeSetting (p : Payload)
  | masterActivation (p : Payload)
  | displayUpdateControl2 (p : Payload)
  | writeRam (p : Payload)
  | writeVcomRegister (p : Payload)
  | writeLutRegister (p : Payload)
  | setDummyLinePeriod (p : Payload)
  | setGateLineWidth (p : Payload)
  | setRamXAddressStartEndPosition (p : Payload)
  | setRamYAddressStartEndPosition (p : Payload)
  | setRamXAddressCounter (p : Payload)
  | setRamYAddressCounter (p : Payload)
  | nop (p : Payload)
  | gateScanStartPosition (p : Payload)
  | deepSleepMode (p : Payload)
  | swReset (p : Payload)
  | temperatureSensorControl (p : Payload)
  | displayUpdateControl1 (p : Payload)
  | borderWaveformControl (p : Payload)
  deriving DecidableEq, Repr

/-- What an instruction is encoded to: a request on the host port, or a transfer on the controller port. -/
inductive Encoded where
  | request (r : Request)
  | transfer (t : Transfer)
  deriving DecidableEq, Repr

end Sys2Proof
end

