-- ==== Sys2Proof/WellFormed.lean ====
section
/-! DEFINITION. Which instructions the encoding can spell (`Instr.wellFormed`: the checks of spec/30_encoding.md
R103 items 5 and 6 and of R107), and which command transfers have the documented payload of R121
(`Instr.catalogShaped`; the controller port carries no length, R111, so the engine checks none). -/

namespace Sys2Proof

/-- Profile legality: 1 <= W <= W_MAX, 1 <= H <= H_MAX, ENTRY <= 3 (R107), and both tables 30 bytes long, which
the layout of R106 cannot break. -/
def Profile.legal (p : Profile) : Bool :=
  decide (1 ≤ p.w.toNat) && decide (p.w.toNat ≤ Config.wMax) &&
  decide (1 ≤ p.h.toNat) && decide (p.h.toNat ≤ Config.hMax) &&
  decide (p.entry.toNat ≤ 3) &&
  decide (p.lutF.length = Config.lutLen) && decide (p.lutP.length = Config.lutLen)

/-- An instruction some request or transfer spells (R103 items 5 and 6, R107): the engine makes no transfer whose opcode
is outside CATALOG (R122). -/
def Instr.wellFormed (i : Instr) (c : CommandTable) : Bool :=
  match i with
  | .init p => p.legal
  | .setDisplayArea _ _ _ _ => true
  | .loadFullLut => true
  | .loadPartialLut => true
  | .loadImage _ => true
  | .powerOn => true
  | .updateFull => true
  | .updatePartial => true
  | .powerOff => true
  | .showFullScreenImage _ => true
  | .loadPartialImage _ _ _ _ _ => true
  | .writeCmd op => c.catalog.contains op
  | .writeData _ => true
  | .writeCmdString op _ => c.catalog.contains op
  | .driverOutputControl _ => c.catalog.contains (c.opcode .driverOutputControl)
  | .boosterSoftStartControl _ => c.catalog.contains (c.opcode .boosterSoftStartControl)
  | .dataEntryModeSetting _ => c.catalog.contains (c.opcode .dataEntryModeSetting)
  | .masterActivation _ => c.catalog.contains (c.opcode .masterActivation)
  | .displayUpdateControl2 _ => c.catalog.contains (c.opcode .displayUpdateControl2)
  | .writeRam _ => c.catalog.contains (c.opcode .writeRam)
  | .writeVcomRegister _ => c.catalog.contains (c.opcode .writeVcomRegister)
  | .writeLutRegister _ => c.catalog.contains (c.opcode .writeLutRegister)
  | .setDummyLinePeriod _ => c.catalog.contains (c.opcode .setDummyLinePeriod)
  | .setGateLineWidth _ => c.catalog.contains (c.opcode .setGateLineWidth)
  | .setRamXAddressStartEndPosition _ => c.catalog.contains (c.opcode .setRamXAddressStartEndPosition)
  | .setRamYAddressStartEndPosition _ => c.catalog.contains (c.opcode .setRamYAddressStartEndPosition)
  | .setRamXAddressCounter _ => c.catalog.contains (c.opcode .setRamXAddressCounter)
  | .setRamYAddressCounter _ => c.catalog.contains (c.opcode .setRamYAddressCounter)
  | .nop _ => c.catalog.contains (c.opcode .nop)
  | .gateScanStartPosition _ => c.catalog.contains (c.opcode .gateScanStartPosition)
  | .deepSleepMode _ => c.catalog.contains (c.opcode .deepSleepMode)
  | .swReset _ => c.catalog.contains (c.opcode .swReset)
  | .temperatureSensorControl _ => c.catalog.contains (c.opcode .temperatureSensorControl)
  | .displayUpdateControl1 _ => c.catalog.contains (c.opcode .displayUpdateControl1)
  | .borderWaveformControl _ => c.catalog.contains (c.opcode .borderWaveformControl)

/-- A `CmdString` payload of exactly `n` bytes. -/
def Payload.hasLength (p : Payload) (n : Nat) : Bool :=
  match p with
  | none => false
  | some bs => decide (bs.length = n)

/-- A controller command whose transfer has the payload length of R121 (no payload: a bare `Cmd`). The six
commands of R122 have host-chosen payloads, and a host operation is no transfer. -/
def Instr.catalogShaped : Instr → Bool
  | .init _ => true
  | .setDisplayArea _ _ _ _ => true
  | .loadFullLut => true
  | .loadPartialLut => true
  | .loadImage _ => true
  | .powerOn => true
  | .updateFull => true
  | .updatePartial => true
  | .powerOff => true
  | .showFullScreenImage _ => true
  | .loadPartialImage _ _ _ _ _ => true
  | .writeCmd _ => true
  | .writeData _ => true
  | .writeCmdString _ _ => true
  | .driverOutputControl p => p.hasLength 3
  | .boosterSoftStartControl p => p.hasLength 3
  | .dataEntryModeSetting p => p.hasLength 1
  | .masterActivation p => p.isNone
  | .displayUpdateControl2 p => p.hasLength 1
  | .writeRam p => p.isSome
  | .writeVcomRegister p => p.hasLength 1
  | .writeLutRegister p => p.hasLength 30
  | .setDummyLinePeriod p => p.hasLength 1
  | .setGateLineWidth p => p.hasLength 1
  | .setRamXAddressStartEndPosition p => p.hasLength 2
  | .setRamYAddressStartEndPosition p => p.hasLength 4
  | .setRamXAddressCounter p => p.hasLength 1
  | .setRamYAddressCounter p => p.hasLength 2
  | .nop p => p.isNone
  | .gateScanStartPosition _ => true
  | .deepSleepMode _ => true
  | .swReset _ => true
  | .temperatureSensorControl _ => true
  | .displayUpdateControl1 _ => true
  | .borderWaveformControl _ => true

end Sys2Proof
end

