-- ==== Sys2Proof/Decode.lean ====
section
/-! DEFINITION. The decoder and, after it, the encoder (spec/30_encoding.md). `decodeRequest` reads a request
presented on the host port: total, every illegal encoding of R103 refused by name. `decodeTransfer` reads a
command transfer on the controller port by its opcode byte (R121, R122). Then the two fixed functions of the
host's table check. -/

namespace Sys2Proof

/-- Why a request or a transfer spells no instruction: the items of R103, by name. -/
inductive Reject where
  /-- R103 item 1: OP in 0x0E..0xFF. -/
  | reservedOp
  /-- R103 item 2: RSV is not 0. -/
  | reservedField
  /-- R103 item 3: an unused operand field, or A[15:8] of a raw operation, is not 0. -/
  | unusedOperand
  /-- R103 item 4: a buffer where R101 says "none". -/
  | unexpectedBuffer
  /-- R103 item 5: an opcode outside CATALOG. -/
  | opcodeNotInCatalog
  /-- R103 item 6: an INIT buffer whose length is not 71. -/
  | profileLength
  /-- R103 item 6: an INIT profile that R107 calls illegal. -/
  | illegalProfile
  /-- No refusal of R103: the opcode of a transfer is a member of CATALOG that no command of R121 or R122 has. -/
  | unnamedOpcode
  deriving DecidableEq, Repr

/-! ### Fields of a descriptor (R100) -/

/-- OP, bits 7:0. -/
def descOp (d : Desc) : Byte := d.extractLsb' 0 8

/-- RSV, bits 15:8. -/
def descRsv (d : Desc) : Byte := d.extractLsb' 8 8

/-- A, bits 31:16. -/
def descA (d : Desc) : Half := d.extractLsb' 16 16

/-- B, bits 47:32. -/
def descB (d : Desc) : Half := d.extractLsb' 32 16

/-- C, bits 63:48. -/
def descC (d : Desc) : Half := d.extractLsb' 48 16

/-- D, bits 79:64. -/
def descD (d : Desc) : Half := d.extractLsb' 64 16

/-- A descriptor written `D C B A RSV:OP` with RSV = 0 (R100). -/
def mkDesc (op : Byte) (a b c d : Half) : Desc := d ++ c ++ b ++ a ++ (0x00#8) ++ op

/-! ### Host requests -/

/-- The low byte of an operand, A[7:0]. -/
def lowByte (v : Half) : Byte := v.extractLsb' 0 8

/-- The high byte of an operand, A[15:8]. -/
def highByte (v : Half) : Byte := v.extractLsb' 8 8

/-- A 16-bit value from its low and high byte, `lo + 256*hi` (R106). -/
def halfOfBytes (lo hi : Byte) : Half := hi ++ lo

/-- A request that uses no operand field: A to D must be 0 (R103 item 3). -/
def withoutOperands (d : Desc) (k : Except Reject Instr) : Except Reject Instr :=
  if descA d = 0#16 ∧ descB d = 0#16 ∧ descC d = 0#16 ∧ descD d = 0#16 then k else .error .unusedOperand

/-- A request that carries one byte in A[7:0]: A[15:8] and B to D must be 0 (R103 item 3). -/
def withByteOperand (d : Desc) (k : Byte → Except Reject Instr) : Except Reject Instr :=
  if highByte (descA d) = 0#8 ∧ descB d = 0#16 ∧ descC d = 0#16 ∧ descD d = 0#16 then k (lowByte (descA d))
  else .error .unusedOperand

/-- A request that carries no buffer (R103 item 4). -/
def withoutBuffer (buf : List Byte) (k : Except Reject Instr) : Except Reject Instr :=
  if buf = [] then k else .error .unexpectedBuffer

/-- A raw opcode must be in CATALOG (R103 item 5). -/
def inCatalog (c : CommandTable) (op : Byte) (k : Except Reject Instr) : Except Reject Instr :=
  if c.catalog.contains op then k else .error .opcodeNotInCatalog

/-- The profile image of R106, 71 bytes. -/
def decodeProfile (buf : List Byte) : Except Reject Profile :=
  match buf with
  | w0 :: w1 :: h0 :: h1 :: s0 :: s1 :: s2 :: v :: d :: g :: e :: tables =>
    if tables.length = Config.lutLen + Config.lutLen then
      .ok { w := halfOfBytes w0 w1, h := halfOfBytes h0 h1, ss0 := s0, ss1 := s1, ss2 := s2, vcom := v,
            dummy := d, gate := g, entry := e,
            lutF := tables.take Config.lutLen, lutP := tables.drop Config.lutLen }
    else .error .profileLength
  | _ => .error .profileLength

/-- INIT's buffer: a profile image of 71 bytes that is legal (R103 item 6, R107). -/
def decodeInit (buf : List Byte) : Except Reject Instr :=
  match decodeProfile buf with
  | .error r => .error r
  | .ok p => if p.legal then .ok (.init p) else .error .illegalProfile

/-- The host operation of an OP value with its operands and buffer (R101, R102). -/
def decodeOp (c : CommandTable) (d : Desc) (buf : List Byte) : Except Reject Instr :=
  if descOp d = 0x00#8 then withoutOperands d (decodeInit buf)
  else if descOp d = 0x01#8 then
    withoutBuffer buf (.ok (.setDisplayArea (descA d) (descB d) (descC d) (descD d)))
  else if descOp d = 0x02#8 then withoutOperands d (withoutBuffer buf (.ok .loadFullLut))
  else if descOp d = 0x03#8 then withoutOperands d (withoutBuffer buf (.ok .loadPartialLut))
  else if descOp d = 0x04#8 then withoutOperands d (.ok (.loadImage buf))
  else if descOp d = 0x05#8 then withoutOperands d (withoutBuffer buf (.ok .powerOn))
  else if descOp d = 0x06#8 then withoutOperands d (withoutBuffer buf (.ok .updateFull))
  else if descOp d = 0x07#8 then withoutOperands d (withoutBuffer buf (.ok .updatePartial))
  else if descOp d = 0x08#8 then withoutOperands d (withoutBuffer buf (.ok .powerOff))
  else if descOp d = 0x09#8 then withoutOperands d (.ok (.showFullScreenImage buf))
  else if descOp d = 0x0A#8 then .ok (.loadPartialImage (descA d) (descB d) (descC d) (descD d) buf)
  else if descOp d = 0x0B#8 then
    withByteOperand d fun op => withoutBuffer buf (inCatalog c op (.ok (.writeCmd op)))
  else if descOp d = 0x0C#8 then withByteOperand d fun b => withoutBuffer buf (.ok (.writeData b))
  else if descOp d = 0x0D#8 then withByteOperand d fun op => inCatalog c op (.ok (.writeCmdString op buf))
  else .error .reservedOp

/-- The host request decoder (R103, R104): the reserved byte after the opcode map, then the operation. -/
def decodeRequest (c : CommandTable) (r : Request) : Except Reject Instr :=
  if descOp r.desc > 0x0D#8 then .error .reservedOp
  else if descRsv r.desc ≠ 0#8 then .error .reservedField
  else decodeOp c r.desc r.buf

/-! ### Command transfers -/

/-- The instruction of a command with its transfer's payload. -/
def Command.instr (k : Command) (p : Payload) : Instr :=
  match k with
  | .driverOutputControl => .driverOutputControl p
  | .boosterSoftStartControl => .boosterSoftStartControl p
  | .dataEntryModeSetting => .dataEntryModeSetting p
  | .masterActivation => .masterActivation p
  | .displayUpdateControl2 => .displayUpdateControl2 p
  | .writeRam => .writeRam p
  | .writeVcomRegister => .writeVcomRegister p
  | .writeLutRegister => .writeLutRegister p
  | .setDummyLinePeriod => .setDummyLinePeriod p
  | .setGateLineWidth => .setGateLineWidth p
  | .setRamXAddressStartEndPosition => .setRamXAddressStartEndPosition p
  | .setRamYAddressStartEndPosition => .setRamYAddressStartEndPosition p
  | .setRamXAddressCounter => .setRamXAddressCounter p
  | .setRamYAddressCounter => .setRamYAddressCounter p
  | .nop => .nop p
  | .gateScanStartPosition => .gateScanStartPosition p
  | .deepSleepMode => .deepSleepMode p
  | .swReset => .swReset p
  | .temperatureSensorControl => .temperatureSensorControl p
  | .displayUpdateControl1 => .displayUpdateControl1 p
  | .borderWaveformControl => .borderWaveformControl p

/-- The controller command of a transfer, by its opcode byte (R121, R122). -/
def decodeTransfer (c : CommandTable) (t : Transfer) : Except Reject Instr :=
  inCatalog c t.opcode
    (match c.commandOf t.opcode with
     | some k => .ok (k.instr t.payload)
     | none => .error .unnamedOpcode)

/-- The decoder of both ports. -/
def decode (c : CommandTable) : Encoded → Except Reject Instr
  | .request r => decodeRequest c r
  | .transfer t => decodeTransfer c t

/-! ### The encoder -/

/-- The profile image of R106. -/
def encodeProfile (p : Profile) : List Byte :=
  [lowByte p.w, highByte p.w, lowByte p.h, highByte p.h, p.ss0, p.ss1, p.ss2, p.vcom, p.dummy, p.gate, p.entry]
    ++ p.lutF ++ p.lutP

/-- A byte operand in A[7:0], A[15:8] = 0 (R101). -/
def byteOperand (b : Byte) : Half := (0x00#8) ++ b

/-- A request of operation `op` with no operand. -/
def bareRequest (op : Byte) (buf : List Byte) : Request :=
  { desc := mkDesc op 0#16 0#16 0#16 0#16, buf := buf }

/-- The encoding of an instruction, from the tables of R101, R106, R121 and R122. -/
def encode (c : CommandTable) : Instr → Encoded
  | .init p => .request (bareRequest 0x00#8 (encodeProfile p))
  | .setDisplayArea xs xe ys ye => .request { desc := mkDesc 0x01#8 xs xe ys ye, buf := [] }
  | .loadFullLut => .request (bareRequest 0x02#8 [])
  | .loadPartialLut => .request (bareRequest 0x03#8 [])
  | .loadImage buf => .request (bareRequest 0x04#8 buf)
  | .powerOn => .request (bareRequest 0x05#8 [])
  | .updateFull => .request (bareRequest 0x06#8 [])
  | .updatePartial => .request (bareRequest 0x07#8 [])
  | .powerOff => .request (bareRequest 0x08#8 [])
  | .showFullScreenImage buf => .request (bareRequest 0x09#8 buf)
  | .loadPartialImage xs xw ys yh buf => .request { desc := mkDesc 0x0A#8 xs xw ys yh, buf := buf }
  | .writeCmd op => .request { desc := mkDesc 0x0B#8 (byteOperand op) 0#16 0#16 0#16, buf := [] }
  | .writeData b => .request { desc := mkDesc 0x0C#8 (byteOperand b) 0#16 0#16 0#16, buf := [] }
  | .writeCmdString op buf => .request { desc := mkDesc 0x0D#8 (byteOperand op) 0#16 0#16 0#16, buf := buf }
  | .driverOutputControl p => .transfer { opcode := c.opcode .driverOutputControl, payload := p }
  | .boosterSoftStartControl p => .transfer { opcode := c.opcode .boosterSoftStartControl, payload := p }
  | .dataEntryModeSetting p => .transfer { opcode := c.opcode .dataEntryModeSetting, payload := p }
  | .masterActivation p => .transfer { opcode := c.opcode .masterActivation, payload := p }
  | .displayUpdateControl2 p => .transfer { opcode := c.opcode .displayUpdateControl2, payload := p }
  | .writeRam p => .transfer { opcode := c.opcode .writeRam, payload := p }
  | .writeVcomRegister p => .transfer { opcode := c.opcode .writeVcomRegister, payload := p }
  | .writeLutRegister p => .transfer { opcode := c.opcode .writeLutRegister, payload := p }
  | .setDummyLinePeriod p => .transfer { opcode := c.opcode .setDummyLinePeriod, payload := p }
  | .setGateLineWidth p => .transfer { opcode := c.opcode .setGateLineWidth, payload := p }
  | .setRamXAddressStartEndPosition p => .transfer { opcode := c.opcode .setRamXAddressStartEndPosition, payload := p }
  | .setRamYAddressStartEndPosition p => .transfer { opcode := c.opcode .setRamYAddressStartEndPosition, payload := p }
  | .setRamXAddressCounter p => .transfer { opcode := c.opcode .setRamXAddressCounter, payload := p }
  | .setRamYAddressCounter p => .transfer { opcode := c.opcode .setRamYAddressCounter, payload := p }
  | .nop p => .transfer { opcode := c.opcode .nop, payload := p }
  | .gateScanStartPosition p => .transfer { opcode := c.opcode .gateScanStartPosition, payload := p }
  | .deepSleepMode p => .transfer { opcode := c.opcode .deepSleepMode, payload := p }
  | .swReset p => .transfer { opcode := c.opcode .swReset, payload := p }
  | .temperatureSensorControl p => .transfer { opcode := c.opcode .temperatureSensorControl, payload := p }
  | .displayUpdateControl1 p => .transfer { opcode := c.opcode .displayUpdateControl1, payload := p }
  | .borderWaveformControl p => .transfer { opcode := c.opcode .borderWaveformControl, payload := p }

/-- The host request that stands for a transfer when it is made by itself: WRITE_CMD for a bare opcode,
WRITE_CMD_STRING for an opcode with a payload (R270, R272). -/
def rawRequest (t : Transfer) : Request :=
  match t.payload with
  | none => { desc := mkDesc 0x0B#8 (byteOperand t.opcode) 0#16 0#16 0#16, buf := [] }
  | some p => { desc := mkDesc 0x0D#8 (byteOperand t.opcode) 0#16 0#16 0#16, buf := p }

/-- The request an instruction is latched as: its encoding, or for a controller command its raw request. -/
def requestOf (c : CommandTable) (i : Instr) : Request :=
  match encode c i with
  | .request r => r
  | .transfer t => rawRequest t

/-! ### Table words -/

/-- The payload of a command transfer whose payload bytes are all zero, with the length of R121: none for a
command without payload and for the six of R122, `some` with as many zero bytes otherwise. -/
def zeroPayload (c : CommandTable) (op : Byte) : Payload :=
  match c.commandOf op with
  | some k => k.payloadLength.map fun n => List.replicate n 0#8
  | none => none

/-- The first `n` bytes of a number, the least significant first. -/
def bytesOfNat : Nat → Nat → List Byte
  | 0, _ => []
  | n + 1, w => BitVec.ofNat 8 w :: bytesOfNat n (w / 256)

/-- The payload of a table word: the word's bytes after the opcode, then the zero bytes of the length of R121. -/
def tablePayload (c : CommandTable) (op : Byte) (given : List Byte) : Payload :=
  match given, zeroPayload c op with
  | [], p => p
  | bs, none => some bs
  | bs, some z => some (bs ++ z.drop bs.length)

/-- The smallest legal profile: W = H = 1, every other byte 0. The table gives an INIT descriptor no buffer, and
no INIT has its meaning without a legal one (log entry 8). -/
def smallestProfile : Profile :=
  { w := 1#16, h := 1#16, ss0 := 0#8, ss1 := 0#8, ss2 := 0#8, vcom := 0#8, dummy := 0#8, gate := 0#8, entry := 0#8,
    lutF := List.replicate 30 0#8, lutP := List.replicate 30 0#8 }

/-- The buffer presented with a table word's descriptor: empty, and for INIT the smallest legal profile image. -/
def tableBuffer (d : Desc) : List Byte :=
  if descOp d = 0x00#8 then encodeProfile smallestProfile else []

/-- What a word of spec/opcode_table.json is: words of 80 bits, or of 16 (the bits the table fixes in
SET_DISPLAY_AREA and LOAD_PARTIAL_IMAGE), are descriptors of rows of format HOSTREQ, and others command transfers
of rows of format BUSCMD, opcode first (log entry 8). -/
def tableWord (c : CommandTable) (nbits w : Nat) : Encoded :=
  if nbits = 16 ∨ 80 ≤ nbits then
    .request { desc := BitVec.ofNat 80 (w % 2 ^ nbits), buf := tableBuffer (BitVec.ofNat 80 (w % 2 ^ nbits)) }
  else
    .transfer { opcode := BitVec.ofNat 8 w,
                payload := tablePayload c (BitVec.ofNat 8 w) (bytesOfNat (nbits / 8 - 1) (w / 256)) }

/-- The instruction the decoder reads from an instruction whose bits are `w`, numbered as the table numbers them;
every bit above `nbits` is 0. The table gives the opcodes of the default `OPC`. -/
def decodeTableWord (nbits w : Nat) : Option Instr :=
  match decode Config.commands (tableWord Config.commands nbits w) with
  | .ok i => some i
  | .error _ => none

end Sys2Proof
end

