-- ==== Sys2Proof/Machine/State.lean ====
section
/-! DEFINITION. The state of the machine (spec/10_state.md R30 to R49): the engine's registers and sequencer, the
ghost state and the trace a model keeps for claims, and the two inputs, the host's requests and the environment's
answers. Then the reasons a step can stop, and the state after reset (R49, spec/70_reset_and_hazards.md R340). -/

namespace Sys2Proof.Machine

/-- `LIFE` (R31): whether a driver exists. -/
inductive Life where
  | uninit
  | ready
  deriving DecidableEq, Repr

/-- A pin latch (R42): 0, 1 or X, the unknown level. -/
inductive Level where
  | low
  | high
  | unknown
  deriving DecidableEq, Repr

/-- The three outputs the engine drives (R12). -/
inductive Pin where
  | rst
  | cs
  | dc
  deriving DecidableEq, Repr

/-- `STATUS` with `ERR_INFO` (R43, R105). -/
inductive Status where
  | none
  | ok
  | boundsError
  | lengthError
  | transportError (e : ErrVal)
  deriving DecidableEq, Repr

/-- The environment's answer to a PIN call (R260). -/
inductive PinAnswer where
  | ok
  | err (e : ErrVal)
  deriving DecidableEq, Repr

/-- The environment's answer to a SEND call (R261). -/
inductive SendAnswer where
  | ok
  | wouldblock
  | err (e : ErrVal)
  deriving DecidableEq, Repr

/-- The environment's answer to a READ call (R261). -/
inductive ReadAnswer where
  | ok (b : Byte)
  | wouldblock
  | err (e : ErrVal)
  deriving DecidableEq, Repr

/-- The environment's answer to a POLL of BUSY, `true` for high (R264). -/
inductive PollAnswer where
  | ok (level : Bool)
  | err (e : ErrVal)
  deriving DecidableEq, Repr

/-- An event of the trace: a port action with the environment's answer (R13). A pin value is `true` for high. -/
inductive Event where
  | pin (p : Pin) (v : Bool) (a : PinAnswer)
  | send (b : Byte) (a : SendAnswer)
  | read (a : ReadAnswer)
  | poll (a : PollAnswer)
  | delay (ms : Half)
  deriving DecidableEq, Repr

/-- A port action of an operation's sequence (R12, R33). An `Exchange` is a `send` and then a `read` (R262, log
entry 6). `guarded` marks a pin action inside a transfer whose failure calls RestoreCS (R273). -/
inductive Action where
  | pin (p : Pin) (v : Bool) (guarded : Bool)
  | send (b : Byte)
  | read
  | poll
  | delay (ms : Half)
  deriving DecidableEq, Repr

/-- The request that executes: `REQ` as latched (R34), `µpc`, the index of the next port action (R33), and the
error that waits for RestoreCS to be answered, if the failing action was inside a transfer (R273, log entry 20). -/
structure Running where
  req : Request
  upc : Nat
  failing : Option ErrVal
  deriving DecidableEq, Repr

/-- `SEQ` (R32): IDLE, or EXEC with what is "defined only while SEQ = EXEC" (R33). -/
inductive Seq where
  | idle
  | exec (r : Running)
  deriving DecidableEq, Repr

/-- Ghost `PHASE` (R45, R238). -/
inductive Phase where
  | idle
  | poweringOn
  | powered
  | updatingFull
  | updatingPartial
  | poweringOff
  deriving DecidableEq, Repr

/-- Ghost `SHADOW` (R46): the controller registers as the engine last programmed them; `none` is "unknown". -/
structure Shadow where
  winX : Option (BitVec 8 × BitVec 8)
  winY : Option (BitVec Config.val9Bits × BitVec Config.val9Bits)
  cntX : Option (BitVec 8)
  cntY : Option (BitVec Config.val9Bits)
  lutLoaded : Option (List Byte)
  updMask : Option Byte
  ramOpen : Option Bool
  deriving DecidableEq, Repr

/-- The CS-low interval in progress, as the trace shows it: the byte sent and not yet read back, the opcode byte
exchanged with DC low, the payload bytes exchanged with DC high. An interval in which an action failed is dropped,
since it is not "complete" (R46). -/
structure Interval where
  sent : Option Byte
  opcode : Option Byte
  payload : List Byte
  deriving DecidableEq, Repr

/-- The ghost state (R45 to R47), and whether the trace so far satisfies the hazard predicates of R352 and R355
(log entry 18). No engine rule reads it. -/
structure Ghost where
  phase : Phase
  shadow : Shadow
  updWindow : Bool
  interval : Option Interval
  hazSrc : Bool
  hazStrict : Bool
  lutMismatch : Bool
  deriving DecidableEq, Repr

/-- The environment's answers to come, one queue for each kind of call, the next answer first (R7, R13). A call whose
queue is empty is one the environment has not answered yet (log entry 2). -/
structure Env where
  pins : List PinAnswer
  sends : List SendAnswer
  reads : List ReadAnswer
  polls : List PollAnswer
  deriving DecidableEq, Repr

/-- The parameters `T_RST_LOW_MS` and `T_RST_HIGH_MS` (R9, R153), `OPC` and `CATALOG` (R9, R121, R122), which no step
writes (log entries 10 to 12). -/
structure Params where
  tRstLow : Half
  tRstHigh : Half
  commands : CommandTable
  deriving DecidableEq, Repr

/-- The state of the machine. -/
structure State where
  /-- `LIFE` (R31). -/
  life : Life
  /-- `SEQ`, and with it `µpc` and `REQ` (R32 to R34). -/
  seq : Seq
  /-- `W` (R35). -/
  w : Half
  /-- `H` (R36). -/
  h : Half
  /-- `LUT_F` (R39). -/
  lutF : List Byte
  /-- `LUT_P` (R40). -/
  lutP : List Byte
  /-- `CS_L` (R42). -/
  csL : Level
  /-- `DC_L` (R42). -/
  dcL : Level
  /-- `RST_L` (R42). -/
  rstL : Level
  /-- `STATUS` with `ERR_INFO` (R43). -/
  status : Status
  /-- `REFUSED` (R44). -/
  refused : Bool
  /-- Ghost state (R45 to R47). -/
  ghost : Ghost
  /-- The trace, oldest event first (R13). -/
  trace : List Event
  /-- The environment's answers to come (R7). -/
  env : Env
  /-- The requests the host will present, in order (R8). -/
  host : List Request
  /-- The reset holds, `OPC` and `CATALOG` (R9). -/
  params : Params
  deriving DecidableEq, Repr

/-- The opcode byte of a command (`OPC.<command>`, R121). -/
abbrev State.opc (s : State) (k : Command) : Byte := s.params.commands.opcode k

/-- Why the machine stops. Every constructor is safe: it stands for "no move" and is raised only in a state that no
run reaches (log entry 19). -/
inductive Fault where
  /-- A host request given to `exec` while a request executes: "has no move in the model" (R8, R330, I15). Raised by
  the meanings of the host operations. Safe. -/
  | requestWhileExecuting
  /-- A controller command given to `exec` while no request executes: the engine makes a transfer only in a request
  (R7, R32). Raised by the meanings of the controller commands. Safe. -/
  | noRequestExecuting
  /-- A controller command given to `exec` while an error waits for RestoreCS: no later transfer of the request is
  made (R273, R308). Raised by the meanings of the controller commands. Safe. -/
  | errorPathOpen
  /-- EXEC with a `REQ` that spells no operation, which acceptance never latches (R103, R304). Raised by `step`. Safe. -/
  | noSuchSequence
  deriving DecidableEq, Repr

/-- Why an instruction has no meaning here. -/
inductive Refusal where
  /-- An instruction without a meaning yet: raised by an arm of `exec` only; no arm of this model raises it. Safe. -/
  | notModelled (mnemonic : String)
  deriving DecidableEq, Repr

/-- Every field of SHADOW unknown (R46). -/
def Shadow.reset : Shadow :=
  { winX := none, winY := none, cntX := none, cntY := none, lutLoaded := none, updMask := none, ramOpen := none }

/-- The ghost state at engine reset (R49); the empty trace satisfies no hazard predicate. -/
def Ghost.reset : Ghost :=
  { phase := .idle, shadow := Shadow.reset, updWindow := false, interval := none,
    hazSrc := false, hazStrict := false, lutMismatch := false }

/-- An environment that has given no answer yet. -/
def Env.reset : Env := { pins := [], sends := [], reads := [], polls := [] }

/-- The machine right after engine reset (R49, R340). W, H and the two tables are "unspecified; unobservable while
LIFE = UNINIT": zero here, DESIGN CHOICE, log entry 5. -/
def State.reset : State :=
  { life := .uninit
    seq := .idle
    w := 0#16
    h := 0#16
    lutF := List.replicate 30 0#8
    lutP := List.replicate 30 0#8
    csL := .unknown
    dcL := .unknown
    rstL := .unknown
    status := .none
    refused := false
    ghost := Ghost.reset
    trace := []
    env := Env.reset
    host := []
    params := { tRstLow := Config.tRstLowDefault, tRstHigh := Config.tRstHighDefault,
                commands := Config.commands } }

end Sys2Proof.Machine
end

