-- ==== Sys2Proof/Machine/Operands.lean ====
section
/-! DEFINITION. Every operand form of the spec: the 9-bit split (spec/00_scope.md R16), the byte width (R15), the
payload packers (spec/30_encoding.md R125 to R132) and their readers for the ghost state, the bounds and length
checks (R171, R211, R241), and the window of a (start, size) rectangle (R212). Arithmetic is on unbounded numbers
(R10). -/

namespace Sys2Proof.Machine

/-- `byte_width(w) = ceil(w / 8)` (R15). -/
def byteWidth (w : Nat) : Nat := (w + 7) / 8

/-- `BW`, combinational (R38). -/
def State.bw (s : State) : Nat := byteWidth s.w.toNat

/-- `split9(v) = [v & 0xFF, (v >> 8) & 0x01]`: the low byte, then the bits of a 9-bit value above it (R16). -/
def split9 (v : Nat) : List Byte := [BitVec.ofNat 8 v, BitVec.ofNat 8 (v / 256 % 2 ^ (Config.val9Bits - 8))]

/-- The 9-bit value of a low byte and a byte that carries bit 8 (the reader of R16; a raw payload's bits 7:1 of the
second byte are not part of the 9-bit field, log entry 14). -/
def join9 (lo hi : Byte) : BitVec Config.val9Bits := hi.extractLsb' 0 (Config.val9Bits - 8) ++ lo

/-- `pack_driver_output(H)` (R125). -/
def packDriverOutput (h : Nat) : List Byte := split9 (h - 1) ++ [Config.gateModeByte]

/-- `pack_soft_start(SS)` (R126). -/
def packSoftStart (ss0 ss1 ss2 : Byte) : List Byte := [ss0, ss1, ss2]

/-- `pack_byte(v)` (R127). -/
def packByte (v : Byte) : List Byte := [v]

/-- `pack_entry(ENTRY)`: ENTRY is 0..3 in a byte field, sent zero-extended (R128). -/
def packEntry (entry : Byte) : List Byte := [entry]

/-- `pack_x_window(xs, xe)`, each the low 8 bits of the value (R129). -/
def packXWindow (xs xe : Nat) : List Byte := [BitVec.ofNat 8 xs, BitVec.ofNat 8 xe]

/-- `pack_y_window(ys, ye)` (R130). -/
def packYWindow (ys ye : Nat) : List Byte := split9 ys ++ split9 ye

/-- `pack_x_counter(x)` (R131). -/
def packXCounter (x : Nat) : List Byte := [BitVec.ofNat 8 x]

/-- `pack_y_counter(y)` (R131). -/
def packYCounter (y : Nat) : List Byte := split9 y

/-- `pack_lut(T)`, the table's bytes in index order (R132). -/
def packLut (t : List Byte) : List Byte := t

/-- The bounds check of R171: four inclusive upper bounds, no order between start and end. -/
def inBounds (bw h xs xe ys ye : Nat) : Bool :=
  decide (xs ≤ bw) && decide (xe ≤ bw) && decide (ys ≤ h) && decide (ye ≤ h)

/-- The check of SET_DISPLAY_AREA: the error status it raises, if any (R170, R171). -/
def checkArea (xs xe ys ye : Nat) (s : State) : Option Status :=
  if inBounds s.bw s.h.toNat xs xe ys ye then none else some .boundsError

/-- `x_end = x_start + (x_size - 1)` for a size of at least 1 (R212). -/
def windowXEnd (xs xw : Nat) : Nat := xs + (xw - 1)

/-- `y_end = y_start - (y_size - 1)`, on unbounded integers, possibly negative (R212). -/
def windowYEnd (ys yh : Nat) : Int := (ys : Int) - ((yh : Int) - 1)

/-- The checks of LOAD_PARTIAL_IMAGE in their order: length, zero size, negative y_end, then the bounds check of the
derived window (R210 to R214, R307). -/
def checkPartial (xs xw ys yh : Nat) (len : Nat) (s : State) : Option Status :=
  if len ≠ xw * yh then some .lengthError
  else if xw = 0 ∨ yh = 0 then some .boundsError
  else if windowYEnd ys yh < 0 then some .boundsError
  else checkArea xs (windowXEnd xs xw) ys (windowYEnd ys yh).toNat s

/-- The length check of SHOW_FULL_SCREEN_IMAGE (R241). -/
def checkFull (len : Nat) (s : State) : Option Status :=
  if len ≠ s.bw * s.h.toNat then some .lengthError else none

/-- The check of an operation that raises neither BoundsError nor LengthError. -/
def checkNothing (_ : State) : Option Status := none

end Sys2Proof.Machine
end

