-- ==== Sys2Proof/Machine/Flags.lean ====
section
/-! DEFINITION. What the spec has in place of flags: the status codes (spec/30_encoding.md R105), the pin latches
(spec/10_state.md R42), and the ghost state as the trace moves it (R45 to R47, spec/45_refresh_sequence.md R238,
spec/70_reset_and_hazards.md R341, R352, R355). The engine reads none of the ghost. -/

namespace Sys2Proof.Machine

/-- The status code (R105). -/
def Status.code : Status → Nat
  | .none => 0
  | .ok => 1
  | .boundsError => 2
  | .lengthError => 3
  | .transportError _ => 4

/-- `ERR_INFO` (R43, R105). -/
def Status.errInfo : Status → Option ErrVal
  | .none => Option.none
  | .ok => Option.none
  | .boundsError => Option.none
  | .lengthError => Option.none
  | .transportError e => some e

/-- The latch of a pin driven to `v`, by the environment's answer (R42, R260). -/
def latchLevel (v : Bool) (a : PinAnswer) : Level :=
  match a with
  | .ok => if v then .high else .low
  | .err _ => .unknown

/-- The latches after an event: a PIN event writes the latch of its pin, no other event writes one (R42). -/
def State.latch (s : State) (e : Event) : State :=
  match e with
  | .pin p v a =>
    match p with
    | .rst => { s with rstL := latchLevel v a }
    | .cs => { s with csL := latchLevel v a }
    | .dc => { s with dcL := latchLevel v a }
  | .send _ _ => s
  | .read _ => s
  | .poll _ => s
  | .delay _ => s

/-- The refresh operations whose MasterActivation moves PHASE (R238). -/
inductive Refresh where
  | powerOn
  | updateFull
  | updatePartial
  | powerOff
  deriving DecidableEq, Repr

/-- What the ghost state needs to know of the request that executes: which refresh operation a MasterActivation byte
belongs to, whether a Nop byte is an update's own (R352), and whether a busy-wait is POWER_ON's (R238); with them the
owned tables and the command table. -/
structure Context where
  refresh : Option Refresh
  ownNop : Bool
  powerOnWait : Bool
  lutF : List Byte
  lutP : List Byte
  commands : CommandTable
  deriving DecidableEq, Repr

/-- The refresh operation inside SHOW_FULL_SCREEN_IMAGE that a MasterActivation belongs to: the one whose mask that
request has just programmed (R240, R134, log entry 16). -/
def refreshOfMask (m : Option Byte) : Option Refresh :=
  if m = some Config.maskPowerOn then some .powerOn
  else if m = some Config.maskUpdateFull then some .updateFull
  else if m = some Config.maskPowerOff then some .powerOff
  else none

/-- The refresh operation that a MasterActivation byte of the request with this OP belongs to; the raw operations
and the others have none (R45: PHASE is "updated by the refresh operations only"). -/
def refreshOf (op : Byte) (mask : Option Byte) : Option Refresh :=
  if op = 0x05#8 then some .powerOn
  else if op = 0x06#8 then some .updateFull
  else if op = 0x07#8 then some .updatePartial
  else if op = 0x08#8 then some .powerOff
  else if op = 0x09#8 then refreshOfMask mask
  else none

/-- The context of the request that executes; none of it while no request executes. -/
def State.context (s : State) : Context :=
  match s.seq with
  | .idle =>
    { refresh := none
      ownNop := false
      powerOnWait := false
      lutF := s.lutF
      lutP := s.lutP
      commands := s.params.commands }
  | .exec r =>
    { refresh := refreshOf (descOp r.req.desc) s.ghost.shadow.updMask
      ownNop := decide (descOp r.req.desc = 0x06#8 ∨ descOp r.req.desc = 0x07#8 ∨ descOp r.req.desc = 0x09#8)
      powerOnWait := decide (descOp r.req.desc = 0x05#8 ∨ descOp r.req.desc = 0x09#8)
      lutF := s.lutF
      lutP := s.lutP
      commands := s.params.commands }

/-- The SHADOW field a complete command transfer programs (R46). A payload whose length is not the one R121 gives
leaves the field unknown (log entry 14). -/
def Shadow.program (sh : Shadow) (c : CommandTable) (op : Byte) (payload : List Byte) : Shadow :=
  if op = c.opcode .setRamXAddressStartEndPosition then
    { sh with winX := match payload with
              | [xs, xe] => some (xs, xe)
              | _ => none }
  else if op = c.opcode .setRamYAddressStartEndPosition then
    { sh with winY := match payload with
              | [a, b, c, d] => some (join9 a b, join9 c d)
              | _ => none }
  else if op = c.opcode .setRamXAddressCounter then
    { sh with cntX := match payload with
              | [x] => some x
              | _ => none }
  else if op = c.opcode .setRamYAddressCounter then
    { sh with cntY := match payload with
              | [a, b] => some (join9 a b)
              | _ => none }
  else if op = c.opcode .writeLutRegister then
    { sh with lutLoaded := if payload.length = Config.lutLen then some payload else none }
  else if op = c.opcode .displayUpdateControl2 then
    { sh with updMask := match payload with
              | [m] => some m
              | _ => none }
  else sh

/-- PHASE when a refresh operation's MasterActivation byte has been exchanged (R238). -/
def Phase.activated (r : Refresh) : Phase :=
  match r with
  | .powerOn => .poweringOn
  | .updateFull => .updatingFull
  | .updatePartial => .updatingPartial
  | .powerOff => .poweringOff

/-- PHASE when a POLL is answered low (R238). -/
def Phase.polledLow (ph : Phase) (powerOnWait : Bool) : Phase :=
  match ph with
  | .idle => .idle
  | .poweringOn => if powerOnWait then .powered else .poweringOn
  | .powered => .powered
  | .updatingFull => .idle
  | .updatingPartial => .powered
  | .poweringOff => .idle

/-- The bytes HAZ_SRC counts inside UPD_WINDOW (R352). -/
def isHazardousCommand (c : CommandTable) (b : Byte) : Bool :=
  decide (b = c.opcode .writeRam ∨ b = c.opcode .displayUpdateControl2 ∨ b = c.opcode .masterActivation)

/-- Whether the table last loaded is not the one the refresh operation needs; unknown counts as not (R355). -/
def lutMismatches (c : Context) (loaded : Option (List Byte)) : Bool :=
  match c.refresh with
  | some .updateFull => decide (loaded ≠ some c.lutF)
  | some .updatePartial => decide (loaded ≠ some c.lutP)
  | some .powerOn => false
  | some .powerOff => false
  | none => false

/-- A stage mask with the display-pattern stage, bit 2 (R47, R133). An unknown mask, after a raw DisplayUpdateControl2
whose payload is not one byte or after an INIT with none since, counts as one without it: DESIGN CHOICE, log entry
27. -/
def hasPatternStage (m : Option Byte) : Bool :=
  match m with
  | some b => b.getLsbD Config.patternBit
  | none => false

/-- A command byte: a SEND answered ok while CS_L = 0 and DC_L = 0 (R352). It opens or closes the RAM write (R46),
opens UPD_WINDOW if it is a MasterActivation after a mask with the pattern stage (R47), and counts for the hazard
predicates (R352, R355). That a second MasterActivation after the same mask opens a closed window again, where R47 says
"the first SEND", is DESIGN CHOICE, log entry 29. -/
def Ghost.commandByte (g : Ghost) (c : Context) (b : Byte) : Ghost :=
  { g with
    shadow := { g.shadow with ramOpen := some (decide (b = c.commands.opcode .writeRam)) }
    updWindow := g.updWindow || (decide (b = c.commands.opcode .masterActivation) && hasPatternStage g.shadow.updMask)
    hazSrc := g.hazSrc || (g.updWindow && isHazardousCommand c.commands b)
    hazStrict := g.hazStrict || (g.updWindow && !(c.ownNop && decide (b = c.commands.opcode .nop)))
    lutMismatch := g.lutMismatch ||
      (decide (b = c.commands.opcode .masterActivation) && lutMismatches c g.shadow.lutLoaded) }

/-- A byte sent and not yet read back, noted in the interval. -/
def Ghost.noteSent (g : Ghost) (b : Byte) : Ghost :=
  { g with interval := g.interval.map fun i => { i with sent := some b } }

/-- A byte exchanged, send and read, in the CS-low interval: with DC low it is the opcode, with DC high payload
(R110). An opcode MasterActivation of a refresh operation moves PHASE (R238). -/
def Ghost.exchanged (g : Ghost) (c : Context) (dc : Level) (i : Interval) (b : Byte) : Ghost :=
  match dc with
  | .low =>
    { g with
      interval := some { sent := none, opcode := some b, payload := [] }
      phase := if b = c.commands.opcode .masterActivation then
                 match c.refresh with
                 | some r => Phase.activated r
                 | none => g.phase
               else g.phase }
  | .high => { g with interval := some { i with sent := none, payload := i.payload ++ [b] } }
  | .unknown => { g with interval := some { i with sent := none } }

/-- A CS-low interval ended with CS high: a command transfer whose bytes were all exchanged is complete (R46). -/
def Ghost.intervalEnded (g : Ghost) (c : CommandTable) : Ghost :=
  match g.interval with
  | none => g
  | some i =>
    match i.opcode with
    | none => { g with interval := none }
    | some op => { g with interval := none, shadow := g.shadow.program c op i.payload }

/-- RST driven low ends the update sequence (R47); inside UPD_WINDOW the event is a hazard whatever its answer
(R352). -/
def Ghost.resetPulse (g : Ghost) (a : PinAnswer) : Ghost :=
  { g with
    updWindow := match a with
      | .ok => false
      | .err _ => g.updWindow
    hazSrc := g.hazSrc || g.updWindow
    hazStrict := g.hazStrict || g.updWindow }

/-- The ghost state after a PIN event: RST low ends an update sequence, CS low opens and CS high ends an interval, a
failed CS or DC event leaves no interval that could be complete (R46, R47). -/
def Ghost.observePin (g : Ghost) (c : CommandTable) (p : Pin) (v : Bool) (a : PinAnswer) : Ghost :=
  match p with
  | .rst => if v then g else g.resetPulse a
  | .cs =>
    match a with
    | .ok =>
      if v then g.intervalEnded c
      else { g with interval := some { sent := none, opcode := none, payload := [] } }
    | .err _ => { g with interval := none }
  | .dc =>
    match a with
    | .ok => g
    | .err _ => { g with interval := none }

/-- The ghost state after a SEND event: a command byte if CS and DC are low (R352). -/
def Ghost.observeSend (g : Ghost) (c : Context) (cs dc : Level) (b : Byte) (a : SendAnswer) : Ghost :=
  match a with
  | .ok => (if cs = .low ∧ dc = .low then g.commandByte c b else g).noteSent b
  | .wouldblock => g
  | .err _ => { g with interval := none }

/-- The ghost state after a READ answered with a byte: the byte sent last has been exchanged (R262). -/
def Ghost.observeByteRead (g : Ghost) (c : Context) (dc : Level) : Ghost :=
  match g.interval with
  | none => g
  | some i =>
    match i.sent with
    | none => g
    | some b => g.exchanged c dc i b

/-- The ghost state after a READ event. -/
def Ghost.observeRead (g : Ghost) (c : Context) (dc : Level) (a : ReadAnswer) : Ghost :=
  match a with
  | .ok _ => g.observeByteRead c dc
  | .wouldblock => g
  | .err _ => { g with interval := none }

/-- The ghost state after a POLL event: BUSY low ends a running sequence (R47, R238). -/
def Ghost.observePoll (g : Ghost) (c : Context) (a : PollAnswer) : Ghost :=
  match a with
  | .ok level =>
    if level then g else { g with phase := g.phase.polledLow c.powerOnWait, updWindow := false }
  | .err _ => g

/-- The ghost state after an event, from the latches before it (R45 to R47, R238, R352, R355). -/
def Ghost.observe (g : Ghost) (c : Context) (cs dc : Level) (e : Event) : Ghost :=
  match e with
  | .pin p v a => g.observePin c.commands p v a
  | .send b a => g.observeSend c cs dc b a
  | .read a => g.observeRead c dc a
  | .poll a => g.observePoll c a
  | .delay _ => g

/-- The ghost state after a successful INIT (R341): PHASE Idle, UPD_WINDOW false, every SHADOW field unknown except
RAM_OPEN, which is false. The predicates of the trace so far are kept. -/
def Ghost.afterInit (g : Ghost) : Ghost :=
  { g with
    phase := .idle
    shadow := { Shadow.reset with ramOpen := some false }
    updWindow := false
    interval := none }

end Sys2Proof.Machine
end

