-- ==== Sys2Proof/Machine/Ops.lean ====
section
/-! DEFINITION. The shared operations of the engine: the port actions (spec/46_primitives.md R260 to R265), the
primitive transfers (R270 to R272), running a sequence of actions against the environment's answers with the CS
restoration of R273, error entry (spec/60_exceptions.md R308), refusal (R304), and the acceptance of a request
(spec/10_state.md R32 to R34, R307). -/

namespace Sys2Proof.Machine

/-! ### The trace -/

/-- One port action with its answer happens: the event is appended to the trace, its pin latch is written and the
ghost state follows (R13, R42, R45). -/
def State.record (s : State) (e : Event) : State :=
  { s.latch e with ghost := s.ghost.observe s.context s.csL s.dcL e, trace := s.trace ++ [e] }

/-! ### Port actions -/

/-- How a port action, a sequence of them, or a transfer ends: performed; waiting for an answer the environment has
not given; or failed with the environment's error. -/
inductive Progress where
  | done (s : State)
  | waiting (s : State)
  | failed (e : ErrVal) (s : State)
  deriving DecidableEq, Repr

/-- A request whose next port action is one later (R33). -/
def Seq.advance (q : Seq) : Seq :=
  match q with
  | .idle => .idle
  | .exec r => .exec { r with upc := r.upc + 1 }

/-- `PinSet(p, v)` (R260). -/
def pinSet (p : Pin) (v : Bool) (s : State) : Progress :=
  match s.env.pins with
  | [] => .waiting s
  | .ok :: rest => .done (State.record { s with env := { s.env with pins := rest } } (.pin p v .ok))
  | .err e :: rest => .failed e (State.record { s with env := { s.env with pins := rest } } (.pin p v (.err e)))

/-- The send of `Exchange(b)`, again at once on `wouldblock` (R262, R263), over the answers to come. -/
def sendLoop (b : Byte) : List SendAnswer → State → Progress
  | [], s => .waiting { s with env := { s.env with sends := [] } }
  | .ok :: rest, s => .done (State.record { s with env := { s.env with sends := rest } } (.send b .ok))
  | .wouldblock :: rest, s =>
    sendLoop b rest (State.record { s with env := { s.env with sends := rest } } (.send b .wouldblock))
  | .err e :: rest, s => .failed e (State.record { s with env := { s.env with sends := rest } } (.send b (.err e)))

/-- The read of an `Exchange`; the byte read is discarded (R262, R80). -/
def readLoop : List ReadAnswer → State → Progress
  | [], s => .waiting { s with env := { s.env with reads := [] } }
  | .ok b :: rest, s => .done (State.record { s with env := { s.env with reads := rest } } (.read (.ok b)))
  | .wouldblock :: rest, s =>
    readLoop rest (State.record { s with env := { s.env with reads := rest } } (.read .wouldblock))
  | .err e :: rest, s => .failed e (State.record { s with env := { s.env with reads := rest } } (.read (.err e)))

/-- `BusyWait()`: sample BUSY until it reads low (R275). -/
def pollLoop : List PollAnswer → State → Progress
  | [], s => .waiting { s with env := { s.env with polls := [] } }
  | .ok false :: rest, s => .done (State.record { s with env := { s.env with polls := rest } } (.poll (.ok false)))
  | .ok true :: rest, s =>
    pollLoop rest (State.record { s with env := { s.env with polls := rest } } (.poll (.ok true)))
  | .err e :: rest, s => .failed e (State.record { s with env := { s.env with polls := rest } } (.poll (.err e)))

/-- One port action, with its retries. `Delay(ms)` "always returns, has no error" (R265). -/
def perform (a : Action) (s : State) : Progress :=
  match a with
  | .pin p v _ => pinSet p v s
  | .send b => sendLoop b s.env.sends s
  | .read => readLoop s.env.reads s
  | .poll => pollLoop s.env.polls s
  | .delay ms => .done (s.record (.delay ms))

/-- An action inside a transfer, whose failure calls RestoreCS (R273): a guarded pin action, and every byte. The
final CS-high action, INIT's pins outside a transfer, BUSY samples and delays are not (R273, R152, R275). -/
def Action.guarded : Action → Bool
  | .pin _ _ g => g
  | .send _ => true
  | .read => true
  | .poll => false
  | .delay _ => false

/-- The error that waits for RestoreCS (R273). -/
def Seq.holdError (q : Seq) (e : ErrVal) : Seq :=
  match q with
  | .idle => .idle
  | .exec r => .exec { r with failing := some e }

/-- `RestoreCS()`: `PinSet(CS, 1)` once, its own failure ignored; then the first error is raised (R273). -/
def restoreCS (e : ErrVal) (s : State) : Progress :=
  match s.env.pins with
  | [] => .waiting { s with seq := s.seq.holdError e }
  | a :: rest => .failed e (State.record { s with env := { s.env with pins := rest } } (.pin .cs true a))

/-- What follows a failed action: RestoreCS inside a transfer, nothing outside one (R273, R308 (b)). -/
def afterFailure (a : Action) (e : ErrVal) (s : State) : Progress :=
  if a.guarded then restoreCS e s else .failed e s

/-- Port actions in order, µpc one further after each (R33, R82), to the end, to an answer that is missing, or to the
first failure (R308, R309). -/
def runActions : List Action → State → Progress
  | [], s => .done s
  | a :: rest, s =>
    match perform a s with
    | .done t => runActions rest { t with seq := t.seq.advance }
    | .waiting t => .waiting t
    | .failed e t => afterFailure a e t

/-! ### Primitive transfers -/

/-- `Exchange(b)` (R262). -/
def exchange (b : Byte) : List Action := [.send b, .read]

/-- The exchanges of a sequence of bytes, in index order (R73). -/
def exchangeAll (bs : List Byte) : List Action := bs.flatMap exchange

/-- `Cmd(op)` (R270). -/
def cmd (op : Byte) : List Action :=
  [.pin .cs false true, .pin .dc false true] ++ exchange op ++ [.pin .cs true false]

/-- `Data(b)` (R271). -/
def data (b : Byte) : List Action :=
  [.pin .cs false true, .pin .dc true true] ++ exchange b ++ [.pin .cs true false]

/-- `CmdString(op, bytes)` (R272); an empty payload still drives DC high. -/
def cmdString (op : Byte) (bytes : List Byte) : List Action :=
  [.pin .cs false true, .pin .dc false true] ++ exchange op ++ [.pin .dc true true] ++ exchangeAll bytes
    ++ [.pin .cs true false]

/-- A command transfer: `Cmd` without, `CmdString` with a payload (R110). -/
def transferActions (op : Byte) (p : Payload) : List Action :=
  match p with
  | none => cmd op
  | some bytes => cmdString op bytes

/-- `BusyWait()` as an action: the POLL on which µpc stays while BUSY is high (R33, R275). -/
def busyWait : List Action := [.poll]

/-! ### The end of a request -/

/-- A request has performed its whole sequence: STATUS OK, SEQ IDLE (R43, R331). -/
def complete (s : State) : State := { s with seq := .idle, status := .ok }

/-- INIT has performed its whole sequence: LIFE READY too, and the ghost state is reset (R150, R341). -/
def completeInit (s : State) : State :=
  { s with seq := .idle, status := .ok, life := .ready, ghost := s.ghost.afterInit }

/-- Error entry (R308): STATUS is the error, SEQ IDLE, nothing else is saved or rolled back. LIFE stays as it is:
READY for every operation but INIT, which set UNINIT at its acceptance (R312, R158). -/
def abort (st : Status) (s : State) : State := { s with seq := .idle, status := st }

/-- A refusal: no port action, STATUS unchanged, the sticky mark set (R304, R44). -/
def refuse (s : State) : State := { s with refused := true }

/-- A sequence's progress as the state after it: completed, still executing, or failed with
`TransportError(e)`, e unchanged (R266, R303). -/
def settle (finish : State → State) (p : Progress) : State :=
  match p with
  | .done s => finish s
  | .waiting s => s
  | .failed e s => abort (.transportError e) s

/-! ### Acceptance -/

/-- A request begins to execute: it is latched, SEQ is EXEC, µpc at its first port action (R32 to R34). -/
def start (i : Instr) (s : State) : State :=
  { s with seq := .exec { req := requestOf s.params.commands i, upc := 0, failing := none } }

/-- An accepted request in its order of detection (R307 items 3 to 5): a LengthError or BoundsError before any port
action, or the sequence as far as the environment's answers carry it (log entries 1, 2). -/
def execute (i : Instr) (check : State → Option Status) (actions : State → List Action) (s : State) : State :=
  match check s with
  | some st => abort st s
  | none => settle complete (runActions (actions s) (start i s))

/-- A host operation other than INIT: accepted only when SEQ = IDLE (R32, R330), refused if the encoding cannot
spell it or LIFE is UNINIT (R103, R304, R305), else executed. -/
def hostOperation (i : Instr) (check : State → Option Status) (actions : State → List Action) (s : State) :
    Host.Outcome State Fault Refusal :=
  match s.seq with
  | .exec _ => .fault .requestWhileExecuting
  | .idle =>
    if i.wellFormed s.params.commands then
      match s.life with
      | .uninit => .next (refuse s)
      | .ready => .next (execute i check actions s)
    else .next (refuse s)

/-- A controller command: its transfer made on the port as the next one of the request that executes (R110, R270,
R272); the request goes on after it, and a failure is the request's (R303, log entry 9). -/
def commandTransfer (k : Command) (p : Payload) (s : State) : Host.Outcome State Fault Refusal :=
  match s.seq with
  | .idle => .fault .noRequestExecuting
  | .exec r =>
    match r.failing with
    | some _ => .fault .errorPathOpen
    | none => .next (settle id (runActions (transferActions (s.opc k) p) s))

end Sys2Proof.Machine
end

