-- ==== Sys2Proof/Machine/Addressing.lean ====
section
/-! DEFINITION. The addressing window controller: SET_DISPLAY_AREA (spec/42_addressing.md R170 to R179). -/

namespace Sys2Proof.Machine

/-- The four command transfers of a window, in order: X window, Y window, X counter, Y counter, the counters at the
start corner (R172). -/
def areaActions (c : CommandTable) (xs xe ys ye : Nat) : List Action :=
  cmdString (c.opcode .setRamXAddressStartEndPosition) (packXWindow xs xe)
    ++ cmdString (c.opcode .setRamYAddressStartEndPosition) (packYWindow ys ye)
    ++ cmdString (c.opcode .setRamXAddressCounter) (packXCounter xs)
    ++ cmdString (c.opcode .setRamYAddressCounter) (packYCounter ys)

/-- SET_DISPLAY_AREA (R170): the bounds check, then the four transfers. -/
def execSetDisplayArea (xs xe ys ye : Half) (s : State) : Host.Outcome State Fault Refusal :=
  hostOperation (.setDisplayArea xs xe ys ye) (checkArea xs.toNat xe.toNat ys.toNat ye.toNat)
    (fun t => areaActions t.params.commands xs.toNat xe.toNat ys.toNat ye.toNat) s

end Sys2Proof.Machine
end

