-- ==== Sys2Proof/Machine/Commands.lean ====
section
/-! DEFINITION. The controller commands of the Command Catalog (spec/30_encoding.md R110, R121, R122): each is one
command transfer on the controller port, its opcode with DC low and its payload, if any, with DC high. What the
controller does with it belongs to the environment (spec/00_scope.md R6). -/

namespace Sys2Proof.Machine

/-- DriverOutputControl (R110, R121, R125). -/
def execDriverOutputControl (p : Payload) (s : State) : Host.Outcome State Fault Refusal :=
  commandTransfer .driverOutputControl p s

/-- BoosterSoftStartControl (R110, R121, R126). -/
def execBoosterSoftStartControl (p : Payload) (s : State) : Host.Outcome State Fault Refusal :=
  commandTransfer .boosterSoftStartControl p s

/-- DataEntryModeSetting (R110, R121, R128). -/
def execDataEntryModeSetting (p : Payload) (s : State) : Host.Outcome State Fault Refusal :=
  commandTransfer .dataEntryModeSetting p s

/-- MasterActivation (R110, R121). -/
def execMasterActivation (p : Payload) (s : State) : Host.Outcome State Fault Refusal :=
  commandTransfer .masterActivation p s

/-- DisplayUpdateControl2 (R110, R121, R133). -/
def execDisplayUpdateControl2 (p : Payload) (s : State) : Host.Outcome State Fault Refusal :=
  commandTransfer .displayUpdateControl2 p s

/-- WriteRam (R110, R121, R203). -/
def execWriteRam (p : Payload) (s : State) : Host.Outcome State Fault Refusal :=
  commandTransfer .writeRam p s

/-- WriteVcomRegister (R110, R121, R127). -/
def execWriteVcomRegister (p : Payload) (s : State) : Host.Outcome State Fault Refusal :=
  commandTransfer .writeVcomRegister p s

/-- WriteLutRegister (R110, R121, R132). -/
def execWriteLutRegister (p : Payload) (s : State) : Host.Outcome State Fault Refusal :=
  commandTransfer .writeLutRegister p s

/-- SetDummyLinePeriod (R110, R121, R127). -/
def execSetDummyLinePeriod (p : Payload) (s : State) : Host.Outcome State Fault Refusal :=
  commandTransfer .setDummyLinePeriod p s

/-- SetGateLineWidth (R110, R121, R127). -/
def execSetGateLineWidth (p : Payload) (s : State) : Host.Outcome State Fault Refusal :=
  commandTransfer .setGateLineWidth p s

/-- SetRamXAddressStartEndPosition (R110, R121, R129). -/
def execSetRamXAddressStartEndPosition (p : Payload) (s : State) : Host.Outcome State Fault Refusal :=
  commandTransfer .setRamXAddressStartEndPosition p s

/-- SetRamYAddressStartEndPosition (R110, R121, R130). -/
def execSetRamYAddressStartEndPosition (p : Payload) (s : State) : Host.Outcome State Fault Refusal :=
  commandTransfer .setRamYAddressStartEndPosition p s

/-- SetRamXAddressCounter (R110, R121, R131). -/
def execSetRamXAddressCounter (p : Payload) (s : State) : Host.Outcome State Fault Refusal :=
  commandTransfer .setRamXAddressCounter p s

/-- SetRamYAddressCounter (R110, R121, R131). -/
def execSetRamYAddressCounter (p : Payload) (s : State) : Host.Outcome State Fault Refusal :=
  commandTransfer .setRamYAddressCounter p s

/-- Nop (R110, R121, R235). -/
def execNop (p : Payload) (s : State) : Host.Outcome State Fault Refusal :=
  commandTransfer .nop p s

/-- GateScanStartPosition (R110, R122). -/
def execGateScanStartPosition (p : Payload) (s : State) : Host.Outcome State Fault Refusal :=
  commandTransfer .gateScanStartPosition p s

/-- DeepSleepMode (R110, R122). -/
def execDeepSleepMode (p : Payload) (s : State) : Host.Outcome State Fault Refusal :=
  commandTransfer .deepSleepMode p s

/-- SwReset (R110, R122). -/
def execSwReset (p : Payload) (s : State) : Host.Outcome State Fault Refusal :=
  commandTransfer .swReset p s

/-- TemperatureSensorControl (R110, R122). -/
def execTemperatureSensorControl (p : Payload) (s : State) : Host.Outcome State Fault Refusal :=
  commandTransfer .temperatureSensorControl p s

/-- DisplayUpdateControl1 (R110, R122). -/
def execDisplayUpdateControl1 (p : Payload) (s : State) : Host.Outcome State Fault Refusal :=
  commandTransfer .displayUpdateControl1 p s

/-- BorderWaveformControl (R110, R122). -/
def execBorderWaveformControl (p : Payload) (s : State) : Host.Outcome State Fault Refusal :=
  commandTransfer .borderWaveformControl p s

end Sys2Proof.Machine
end

