-- ==== Sys2Proof/Machine/Construction.lean ====
section
/-! DEFINITION. INIT (spec/41_construction.md R150 to R158). -/

namespace Sys2Proof.Machine

/-- INIT's writes at acceptance: the owned registers from the profile, LIFE UNINIT (R151). -/
def acceptProfile (p : Profile) (s : State) : State :=
  { s with w := p.w, h := p.h, lutF := p.lutF, lutP := p.lutP, life := .uninit }

/-- Step 1: the outputs to their idle levels, in the order RST, CS, DC, outside any transfer (R152). -/
def initIdleLevels : List Action := [.pin .rst false false, .pin .cs true false, .pin .dc true false]

/-- Step 2: the reset pulse and its two holds (R153). -/
def initResetPulse (low high : Half) : List Action := [.delay low, .pin .rst true false, .delay high]

/-- Steps 3 to 8: the six command transfers (R154). -/
def initConfiguration (c : CommandTable) (p : Profile) (h : Nat) : List Action :=
  cmdString (c.opcode .driverOutputControl) (packDriverOutput h)
    ++ cmdString (c.opcode .boosterSoftStartControl) (packSoftStart p.ss0 p.ss1 p.ss2)
    ++ cmdString (c.opcode .writeVcomRegister) (packByte p.vcom)
    ++ cmdString (c.opcode .setDummyLinePeriod) (packByte p.dummy)
    ++ cmdString (c.opcode .setGateLineWidth) (packByte p.gate)
    ++ cmdString (c.opcode .dataEntryModeSetting) (packEntry p.entry)

/-- INIT's port actions (R150, R157); the gate count is the register H (R36). -/
def initActions (p : Profile) (s : State) : List Action :=
  initIdleLevels ++ initResetPulse s.params.tRstLow s.params.tRstHigh ++ initConfiguration s.params.commands p s.h.toNat

/-- INIT: accepted whatever LIFE is (R156), refused if the profile is illegal (R103 item 6). -/
def execInit (p : Profile) (s : State) : Host.Outcome State Fault Refusal :=
  match s.seq with
  | .exec _ => .fault .requestWhileExecuting
  | .idle =>
    if p.legal then
      .next (settle completeInit
        (runActions (initActions p (acceptProfile p s)) (start (.init p) (acceptProfile p s))))
    else .next (refuse s)

end Sys2Proof.Machine
end

