-- ==== Sys2Proof/Machine/Pixel.lean ====
section
/-! DEFINITION. Pixel data transfer: LOAD_IMAGE and LOAD_PARTIAL_IMAGE (spec/44_pixel_transfer.md R200 to R216). -/

namespace Sys2Proof.Machine

/-- LOAD_IMAGE's port actions: the busy-wait, then the whole buffer in one WriteRam transfer (R200, R201, R203). -/
def loadImageActions (c : CommandTable) (buf : List Byte) : List Action :=
  busyWait ++ cmdString (c.opcode .writeRam) buf

/-- LOAD_IMAGE (R200): no length check at this layer (R202). -/
def execLoadImage (buf : List Byte) (s : State) : Host.Outcome State Fault Refusal :=
  hostOperation (.loadImage buf) checkNothing (fun t => loadImageActions t.params.commands buf) s

/-- LOAD_PARTIAL_IMAGE's port actions once its checks have passed: the window of the region with descending Y, then
the image (R210, R212, R216). -/
def loadPartialImageActions (c : CommandTable) (xs xw ys yh : Nat) (buf : List Byte) : List Action :=
  areaActions c xs (windowXEnd xs xw) ys (windowYEnd ys yh).toNat ++ loadImageActions c buf

/-- LOAD_PARTIAL_IMAGE (R210): length, size and bounds checks, then window and image. -/
def execLoadPartialImage (xs xw ys yh : Half) (buf : List Byte) (s : State) : Host.Outcome State Fault Refusal :=
  hostOperation (.loadPartialImage xs xw ys yh buf)
    (checkPartial xs.toNat xw.toNat ys.toNat yh.toNat buf.length)
    (fun t => loadPartialImageActions t.params.commands xs.toNat xw.toNat ys.toNat yh.toNat buf) s

end Sys2Proof.Machine
end

