-- ==== Sys2Proof/Machine/Primitives.lean ====
section
/-! DEFINITION. The raw host operations WRITE_CMD, WRITE_DATA and WRITE_CMD_STRING (spec/46_primitives.md R270 to
R272). -/

namespace Sys2Proof.Machine

/-- WRITE_CMD (R270). -/
def execWriteCmd (op : Byte) (s : State) : Host.Outcome State Fault Refusal :=
  hostOperation (.writeCmd op) checkNothing (fun _ => cmd op) s

/-- WRITE_DATA (R271). -/
def execWriteData (b : Byte) (s : State) : Host.Outcome State Fault Refusal :=
  hostOperation (.writeData b) checkNothing (fun _ => data b) s

/-- WRITE_CMD_STRING (R272); the payload length is not checked against the command. -/
def execWriteCmdString (op : Byte) (buf : List Byte) (s : State) : Host.Outcome State Fault Refusal :=
  hostOperation (.writeCmdString op buf) checkNothing (fun _ => cmdString op buf) s

end Sys2Proof.Machine
end

