-- ==== Sys2Proof/Machine/Waveform.lean ====
section
/-! DEFINITION. Waveform-table loading: LOAD_FULL_LUT and LOAD_PARTIAL_LUT (spec/43_waveform_tables.md R190 to
R193). -/

namespace Sys2Proof.Machine

/-- The transfer of LOAD_FULL_LUT: the owned full-update table (R190). -/
def loadFullLutActions (s : State) : List Action := cmdString (s.opc .writeLutRegister) (packLut s.lutF)

/-- The transfer of LOAD_PARTIAL_LUT: the owned partial-update table (R191). -/
def loadPartialLutActions (s : State) : List Action := cmdString (s.opc .writeLutRegister) (packLut s.lutP)

/-- LOAD_FULL_LUT (R190). -/
def execLoadFullLut (s : State) : Host.Outcome State Fault Refusal :=
  hostOperation .loadFullLut checkNothing loadFullLutActions s

/-- LOAD_PARTIAL_LUT (R191). -/
def execLoadPartialLut (s : State) : Host.Outcome State Fault Refusal :=
  hostOperation .loadPartialLut checkNothing loadPartialLutActions s

end Sys2Proof.Machine
end

