-- ==== Sys2Proof/Machine/Refresh.lean ====
section
/-! DEFINITION. The update-sequence operations: POWER_ON, UPDATE_FULL, UPDATE_PARTIAL, POWER_OFF and the wrapper
SHOW_FULL_SCREEN_IMAGE (spec/45_refresh_sequence.md R230 to R244). -/

namespace Sys2Proof.Machine

/-- A stage mask, then the activation of the Display Update Sequence (R230 to R233). -/
def activateActions (c : CommandTable) (mask : Byte) : List Action :=
  cmdString (c.opcode .displayUpdateControl2) (packByte mask) ++ cmd (c.opcode .masterActivation)

/-- POWER_ON's port actions (R230). -/
def powerOnActions (c : CommandTable) : List Action := activateActions c Config.maskPowerOn ++ busyWait

/-- UPDATE_FULL's port actions: no busy-wait, and the Nop that ends an open RAM write (R231, R235). -/
def updateFullActions (c : CommandTable) : List Action :=
  activateActions c Config.maskUpdateFull ++ cmd (c.opcode .nop)

/-- UPDATE_PARTIAL's port actions (R232). -/
def updatePartialActions (c : CommandTable) : List Action :=
  activateActions c Config.maskUpdatePartial ++ cmd (c.opcode .nop)

/-- POWER_OFF's port actions: no busy-wait, no Nop (R233). -/
def powerOffActions (c : CommandTable) : List Action := activateActions c Config.maskPowerOff

/-- POWER_ON (R230). -/
def execPowerOn (s : State) : Host.Outcome State Fault Refusal :=
  hostOperation .powerOn checkNothing (fun t => powerOnActions t.params.commands) s

/-- UPDATE_FULL (R231); the phase order is not enforced (R237). -/
def execUpdateFull (s : State) : Host.Outcome State Fault Refusal :=
  hostOperation .updateFull checkNothing (fun t => updateFullActions t.params.commands) s

/-- UPDATE_PARTIAL (R232). -/
def execUpdatePartial (s : State) : Host.Outcome State Fault Refusal :=
  hostOperation .updatePartial checkNothing (fun t => updatePartialActions t.params.commands) s

/-- POWER_OFF (R233). -/
def execPowerOff (s : State) : Host.Outcome State Fault Refusal :=
  hostOperation .powerOff checkNothing (fun t => powerOffActions t.params.commands) s

/-- The canonical full-refresh recipe, POWER_OFF right after UPDATE_FULL (R240, R242): full table, power on, the
whole panel's window, image, full update, power off. -/
def showFullScreenActions (buf : List Byte) (s : State) : List Action :=
  loadFullLutActions s ++ powerOnActions s.params.commands
    ++ areaActions s.params.commands 0 (s.bw - 1) (s.h.toNat - 1) 0 ++ loadImageActions s.params.commands buf
    ++ updateFullActions s.params.commands ++ powerOffActions s.params.commands

/-- SHOW_FULL_SCREEN_IMAGE (R240): the length check, then the recipe. -/
def execShowFullScreenImage (buf : List Byte) (s : State) : Host.Outcome State Fault Refusal :=
  hostOperation (.showFullScreenImage buf) (checkFull buf.length) (showFullScreenActions buf) s

end Sys2Proof.Machine
end

