-- ==== Sys2Proof/Machine/Dispatch.lean ====
section
/-! DEFINITION. The dispatch: one arm per constructor of `Instr`, each one call of that instruction's meaning. -/

namespace Sys2Proof.Machine

def exec (i : Instr) (s : State) : Host.Outcome State Fault Refusal :=
  match i with
  | .init p => Sys2Proof.Machine.execInit p s
  | .setDisplayArea xs xe ys ye => Sys2Proof.Machine.execSetDisplayArea xs xe ys ye s
  | .loadFullLut => Sys2Proof.Machine.execLoadFullLut s
  | .loadPartialLut => Sys2Proof.Machine.execLoadPartialLut s
  | .loadImage buf => Sys2Proof.Machine.execLoadImage buf s
  | .powerOn => Sys2Proof.Machine.execPowerOn s
  | .updateFull => Sys2Proof.Machine.execUpdateFull s
  | .updatePartial => Sys2Proof.Machine.execUpdatePartial s
  | .powerOff => Sys2Proof.Machine.execPowerOff s
  | .showFullScreenImage buf => Sys2Proof.Machine.execShowFullScreenImage buf s
  | .loadPartialImage xs xw ys yh buf => Sys2Proof.Machine.execLoadPartialImage xs xw ys yh buf s
  | .writeCmd op => Sys2Proof.Machine.execWriteCmd op s
  | .writeData b => Sys2Proof.Machine.execWriteData b s
  | .writeCmdString op buf => Sys2Proof.Machine.execWriteCmdString op buf s
  | .driverOutputControl p => Sys2Proof.Machine.execDriverOutputControl p s
  | .boosterSoftStartControl p => Sys2Proof.Machine.execBoosterSoftStartControl p s
  | .dataEntryModeSetting p => Sys2Proof.Machine.execDataEntryModeSetting p s
  | .masterActivation p => Sys2Proof.Machine.execMasterActivation p s
  | .displayUpdateControl2 p => Sys2Proof.Machine.execDisplayUpdateControl2 p s
  | .writeRam p => Sys2Proof.Machine.execWriteRam p s
  | .writeVcomRegister p => Sys2Proof.Machine.execWriteVcomRegister p s
  | .writeLutRegister p => Sys2Proof.Machine.execWriteLutRegister p s
  | .setDummyLinePeriod p => Sys2Proof.Machine.execSetDummyLinePeriod p s
  | .setGateLineWidth p => Sys2Proof.Machine.execSetGateLineWidth p s
  | .setRamXAddressStartEndPosition p => Sys2Proof.Machine.execSetRamXAddressStartEndPosition p s
  | .setRamYAddressStartEndPosition p => Sys2Proof.Machine.execSetRamYAddressStartEndPosition p s
  | .setRamXAddressCounter p => Sys2Proof.Machine.execSetRamXAddressCounter p s
  | .setRamYAddressCounter p => Sys2Proof.Machine.execSetRamYAddressCounter p s
  | .nop p => Sys2Proof.Machine.execNop p s
  | .gateScanStartPosition p => Sys2Proof.Machine.execGateScanStartPosition p s
  | .deepSleepMode p => Sys2Proof.Machine.execDeepSleepMode p s
  | .swReset p => Sys2Proof.Machine.execSwReset p s
  | .temperatureSensorControl p => Sys2Proof.Machine.execTemperatureSensorControl p s
  | .displayUpdateControl1 p => Sys2Proof.Machine.execDisplayUpdateControl1 p s
  | .borderWaveformControl p => Sys2Proof.Machine.execBorderWaveformControl p s

end Sys2Proof.Machine
end

