-- ==== Sys2Proof/Machine/Sequencer.lean ====
section
/-! DEFINITION. The command sequencer between requests' ends: the sequence of an operation (spec/10_state.md R33:
"each operation is a fixed sequence given by its rule's pseudocode"), the command transfer the sequencer stands
before, and going on with a request whose next answer was missing. -/

namespace Sys2Proof.Machine

/-- The port actions of an operation, from the owned registers and parameters, which its execution does not change
once it is accepted (R33, R86). -/
def sequenceOf (i : Instr) (s : State) : List Action :=
  match i with
  | .init p => initActions p s
  | .setDisplayArea xs xe ys ye => areaActions s.params.commands xs.toNat xe.toNat ys.toNat ye.toNat
  | .loadFullLut => loadFullLutActions s
  | .loadPartialLut => loadPartialLutActions s
  | .loadImage buf => loadImageActions s.params.commands buf
  | .powerOn => powerOnActions s.params.commands
  | .updateFull => updateFullActions s.params.commands
  | .updatePartial => updatePartialActions s.params.commands
  | .powerOff => powerOffActions s.params.commands
  | .showFullScreenImage buf => showFullScreenActions buf s
  | .loadPartialImage xs xw ys yh buf =>
    loadPartialImageActions s.params.commands xs.toNat xw.toNat ys.toNat yh.toNat buf
  | .writeCmd op => cmd op
  | .writeData b => data b
  | .writeCmdString op buf => cmdString op buf
  | .driverOutputControl p => transferActions (s.opc .driverOutputControl) p
  | .boosterSoftStartControl p => transferActions (s.opc .boosterSoftStartControl) p
  | .dataEntryModeSetting p => transferActions (s.opc .dataEntryModeSetting) p
  | .masterActivation p => transferActions (s.opc .masterActivation) p
  | .displayUpdateControl2 p => transferActions (s.opc .displayUpdateControl2) p
  | .writeRam p => transferActions (s.opc .writeRam) p
  | .writeVcomRegister p => transferActions (s.opc .writeVcomRegister) p
  | .writeLutRegister p => transferActions (s.opc .writeLutRegister) p
  | .setDummyLinePeriod p => transferActions (s.opc .setDummyLinePeriod) p
  | .setGateLineWidth p => transferActions (s.opc .setGateLineWidth) p
  | .setRamXAddressStartEndPosition p => transferActions (s.opc .setRamXAddressStartEndPosition) p
  | .setRamYAddressStartEndPosition p => transferActions (s.opc .setRamYAddressStartEndPosition) p
  | .setRamXAddressCounter p => transferActions (s.opc .setRamXAddressCounter) p
  | .setRamYAddressCounter p => transferActions (s.opc .setRamYAddressCounter) p
  | .nop p => transferActions (s.opc .nop) p
  | .gateScanStartPosition p => transferActions (s.opc .gateScanStartPosition) p
  | .deepSleepMode p => transferActions (s.opc .deepSleepMode) p
  | .swReset p => transferActions (s.opc .swReset) p
  | .temperatureSensorControl p => transferActions (s.opc .temperatureSensorControl) p
  | .displayUpdateControl1 p => transferActions (s.opc .displayUpdateControl1) p
  | .borderWaveformControl p => transferActions (s.opc .borderWaveformControl) p

/-- The check an operation makes before its first port action: the error it raises, if any (R307 items 3 and 4). -/
def checkOf (i : Instr) (s : State) : Option Status :=
  match i with
  | .init _ => checkNothing s
  | .setDisplayArea xs xe ys ye => checkArea xs.toNat xe.toNat ys.toNat ye.toNat s
  | .loadFullLut => checkNothing s
  | .loadPartialLut => checkNothing s
  | .loadImage _ => checkNothing s
  | .powerOn => checkNothing s
  | .updateFull => checkNothing s
  | .updatePartial => checkNothing s
  | .powerOff => checkNothing s
  | .showFullScreenImage buf => checkFull buf.length s
  | .loadPartialImage xs xw ys yh buf => checkPartial xs.toNat xw.toNat ys.toNat yh.toNat buf.length s
  | .writeCmd _ => checkNothing s
  | .writeData _ => checkNothing s
  | .writeCmdString _ _ => checkNothing s
  | .driverOutputControl _ => checkNothing s
  | .boosterSoftStartControl _ => checkNothing s
  | .dataEntryModeSetting _ => checkNothing s
  | .masterActivation _ => checkNothing s
  | .displayUpdateControl2 _ => checkNothing s
  | .writeRam _ => checkNothing s
  | .writeVcomRegister _ => checkNothing s
  | .writeLutRegister _ => checkNothing s
  | .setDummyLinePeriod _ => checkNothing s
  | .setGateLineWidth _ => checkNothing s
  | .setRamXAddressStartEndPosition _ => checkNothing s
  | .setRamYAddressStartEndPosition _ => checkNothing s
  | .setRamXAddressCounter _ => checkNothing s
  | .setRamYAddressCounter _ => checkNothing s
  | .nop _ => checkNothing s
  | .gateScanStartPosition _ => checkNothing s
  | .deepSleepMode _ => checkNothing s
  | .swReset _ => checkNothing s
  | .temperatureSensorControl _ => checkNothing s
  | .displayUpdateControl1 _ => checkNothing s
  | .borderWaveformControl _ => checkNothing s

/-- What the end of an operation's sequence does: INIT sets LIFE READY and resets the ghost (R150, R341), every other
operation writes its status only. -/
def finishOf (i : Instr) (s : State) : State :=
  match i with
  | .init _ => completeInit s
  | _ => complete s

/-- The operation that executes, decoded from the latched request (R34, R104). -/
def Running.operation (r : Running) (c : CommandTable) : Except Reject Instr := decodeRequest c r.req

/-- The port actions still to perform: the operation's sequence from µpc on (R33). -/
def remaining (i : Instr) (r : Running) (s : State) : List Action := (sequenceOf i s).drop r.upc

/-- The payload bytes at the head of a transfer's actions, up to its CS-high action. -/
def payloadAhead : List Action → Option (List Byte)
  | .send b :: .read :: rest => (payloadAhead rest).map (b :: ·)
  | .pin .cs true false :: _ => some []
  | _ => none

/-- The command transfer that begins with the next port action, if one does: CS low, DC low, the opcode, then CS high
or DC high and the payload (R110, R111). -/
def transferAhead : List Action → Option Transfer
  | .pin .cs false true :: .pin .dc false true :: .send op :: .read :: .pin .cs true false :: _ =>
    some { opcode := op, payload := none }
  | .pin .cs false true :: .pin .dc false true :: .send op :: .read :: .pin .dc true true :: rest =>
    (payloadAhead rest).map fun p => { opcode := op, payload := some p }
  | _ => none

/-- The controller command the sequencer stands before: the engine's next transfer, decoded by its opcode (R121,
R122). `none` in the middle of a transfer, before any other port action, or on an error path. -/
def nextCommand (s : State) : Option Instr :=
  match s.seq with
  | .idle => none
  | .exec r =>
    match r.failing, r.operation s.params.commands with
    | none, .ok i =>
      match transferAhead (remaining i r s) with
      | none => none
      | some t =>
        match decodeTransfer s.params.commands t with
        | .ok c => some c
        | .error _ => none
    | _, _ => none

/-- Going on with the request that executes, from where it stands, as far as the environment's answers carry it: from
RestoreCS if an error waits for it, else from µpc on. Nothing happens while SEQ = IDLE. -/
def resume (s : State) : Host.Outcome State Fault Refusal :=
  match s.seq with
  | .idle => .next s
  | .exec r =>
    match r.operation s.params.commands with
    | .error _ => .fault .noSuchSequence
    | .ok i =>
      match r.failing with
      | some e => .next (settle (finishOf i) (restoreCS e s))
      | none => .next (settle (finishOf i) (runActions (remaining i r s) s))

end Sys2Proof.Machine
end

