-- ==== Sys2Proof/Machine/Step.lean ====
section
/-! DEFINITION. One step of the machine. While SEQ = IDLE it takes the next request the host presents: decoded and
executed, or refused (spec/30_encoding.md R103, R104; spec/10_state.md R32). While SEQ = EXEC it goes on with the
request that executes; where a controller command is next, that command's meaning is what runs first. -/

namespace Sys2Proof.Machine

/-- A request taken from the host port: executed, or refused by decoding (R104, R304). -/
def takeRequest (r : Request) (s : State) : Host.Outcome State Fault Refusal :=
  match decodeRequest s.params.commands r with
  | .ok i => exec i s
  | .error _ => .next (refuse s)

/-- After one command transfer of a request, the rest of the request. -/
def thenResume (o : Host.Outcome State Fault Refusal) : Host.Outcome State Fault Refusal :=
  match o with
  | .next t => resume t
  | .fault f => .fault f
  | .refused r => .refused r

/-- One step. With no request presented and none executing "the engine takes no step" (R7): the state stays. -/
def step (s : State) : Host.Outcome State Fault Refusal :=
  match s.seq with
  | .idle =>
    match s.host with
    | [] => .next s
    | r :: rest => takeRequest r { s with host := rest }
  | .exec _ =>
    match nextCommand s with
    | some c => thenResume (exec c s)
    | none => resume s

/-- `s` with the instruction of a table word where the next step fetches it: a host request at the head of the
requests to come while SEQ = IDLE; a controller command as the transfer the sequencer stands before, in the request
WRITE_CMD or WRITE_CMD_STRING that makes it (log entries 8, 9). -/
def State.withFetchWord (s : State) (nbits w : Nat) : State :=
  match tableWord s.params.commands nbits w with
  | .request r => { s with seq := .idle, host := r :: s.host }
  | .transfer t => { s with seq := .exec { req := rawRequest t, upc := 0, failing := none } }

end Sys2Proof.Machine
end

