-- ==== Sys2Proof/Safety.lean ====
section
/-! DEFINITION. The terms claims are stated in: which traces carry a sequence of port actions to its end, break it, or
leave it waiting (spec/00_scope.md R13, R14; spec/46_primitives.md R262 to R264, R273, R275); an environment that gives
a trace's answers; how a request ends (spec/60_exceptions.md R331); the invariant of the machine; and the premises
of claims about the controller (spec/70_reset_and_hazards.md R352, R357). -/

namespace Sys2Proof.Machine

/-! ### Traces of a sequence of port actions -/

/-- A READ answered with a byte, whichever it is (R262). -/
def Event.isByteRead (e : Event) : Bool :=
  match e with
  | .pin _ _ _ => false
  | .send _ _ => false
  | .read a => match a with
    | .ok _ => true
    | .wouldblock => false
    | .err _ => false
  | .poll _ => false
  | .delay _ => false

/-- The event performs the action: the call it makes, answered so that the sequence goes on (R260 to R265). -/
def Action.performedBy (a : Action) (e : Event) : Bool :=
  match a with
  | .pin p v _ => decide (e = .pin p v .ok)
  | .send b => decide (e = .send b .ok)
  | .read => e.isByteRead
  | .poll => decide (e = .poll (.ok false))
  | .delay ms => decide (e = .delay ms)

/-- The event is a call of the action after which the same call is made again: `wouldblock`, or BUSY high (R262,
R275). -/
def Action.retriedBy (a : Action) (e : Event) : Bool :=
  match a with
  | .pin _ _ _ => false
  | .send b => decide (e = .send b .wouldblock)
  | .read => decide (e = .read .wouldblock)
  | .poll => decide (e = .poll (.ok true))
  | .delay _ => false

/-- The event fails the action with error `x` (R260 to R264); a delay has no error (R265). -/
def Action.failedBy (a : Action) (x : ErrVal) (e : Event) : Bool :=
  match a with
  | .pin p v _ => decide (e = .pin p v (.err x))
  | .send b => decide (e = .send b (.err x))
  | .read => decide (e = .read (.err x))
  | .poll => decide (e = .poll (.err x))
  | .delay _ => false

/-- `ev` is a complete, error-free trace of the actions: each performed in order, after any number of retries. -/
def carries : List Action → List Event → Bool
  | [], [] => true
  | a :: as, e :: es => (a.performedBy e && carries as es) || (a.retriedBy e && carries (a :: as) es)
  | _, _ => false

/-- The events after a failing action: RestoreCS, answered in any way, if the action is inside a transfer; none
otherwise (R273, R309). -/
def restoredBy (a : Action) (es : List Event) : Bool :=
  match a.guarded, es with
  | true, [.pin .cs true _] => true
  | false, [] => true
  | _, _ => false

/-- `ev` is a trace of the actions up to the first failure, of error `x`, and what follows it (R308, R309). -/
def breaks (x : ErrVal) : List Action → List Event → Bool
  | a :: as, e :: es =>
    (a.performedBy e && breaks x as es) || (a.retriedBy e && breaks x (a :: as) es) ||
      (a.failedBy x e && restoredBy a es)
  | _, _ => false

/-- The environment has not answered the action's call yet. -/
def Action.unanswered (a : Action) (env : Env) : Bool :=
  match a with
  | .pin _ _ _ => env.pins.isEmpty
  | .send _ => env.sends.isEmpty
  | .read => env.reads.isEmpty
  | .poll => env.polls.isEmpty
  | .delay _ => false

/-- `ev` is a trace of the first `n` actions, error-free, and the call of the next one is unanswered in `env`: the
request hangs there until the environment answers (R14, R313). -/
def stalls (env : Env) : List Action → List Event → Nat → Bool
  | a :: _, [], 0 => a.unanswered env
  | a :: as, e :: es, n =>
    (a.retriedBy e && stalls env (a :: as) es n) ||
      (match n with
       | 0 => false
       | m + 1 => a.performedBy e && stalls env as es m)
  | _, _, _ => false

/-- `ev` is a trace of the actions up to the first failure, of error `x` and inside a transfer, after `n` actions, and
RestoreCS is unanswered in `env` (R273, log entry 20). -/
def restoring (x : ErrVal) (env : Env) : List Action → List Event → Nat → Bool
  | a :: as, e :: es, n =>
    (a.retriedBy e && restoring x env (a :: as) es n) ||
      (match n with
       | 0 => a.failedBy x e && a.guarded && es.isEmpty && env.pins.isEmpty
       | m + 1 => a.performedBy e && restoring x env as es m)
  | _, _, _ => false

/-! ### What a command transfer leaves of the ghost state -/

/-- PHASE after an opcode byte has been exchanged (R238). -/
def Phase.afterOpcode (ph : Phase) (c : Context) (op : Byte) : Phase :=
  if op = c.commands.opcode .masterActivation then
    match c.refresh with
    | some r => Phase.activated r
    | none => ph
  else ph

/-- The ghost state after a complete command transfer: its command byte counted, PHASE moved, the SHADOW field it
programs written (R46, R47, R238, R352, R355). -/
def Ghost.afterTransfer (g : Ghost) (c : Context) (op : Byte) (payload : List Byte) : Ghost :=
  { g.commandByte c op with
    phase := g.phase.afterOpcode c op
    interval := none
    shadow := (g.commandByte c op).shadow.program c.commands op payload }

/-! ### The environment's answers -/

/-- An environment that gives the event's answer before those of `env`; a delay has no answer (R7, R265). -/
def Env.answer (e : Event) (env : Env) : Env :=
  match e with
  | .pin _ _ a => { env with pins := a :: env.pins }
  | .send _ a => { env with sends := a :: env.sends }
  | .read a => { env with reads := a :: env.reads }
  | .poll a => { env with polls := a :: env.polls }
  | .delay _ => env

/-- An environment that gives the answers of `ev`, in order, and then those of `rest`. -/
def Env.giving (ev : List Event) (rest : Env) : Env := ev.foldr Env.answer rest

/-- The state after the events have happened, one after the other. -/
def State.recordAll (s : State) (ev : List Event) : State := ev.foldl State.record s

/-- µpc `n` port actions later (R33). -/
def Seq.advanceBy (q : Seq) (n : Nat) : Seq :=
  match q with
  | .idle => .idle
  | .exec r => .exec { r with upc := r.upc + n }

/-- The state after `n` port actions whose events are `ev`, the environment's further answers being `rest`. -/
def State.after (s : State) (ev : List Event) (rest : Env) (n : Nat) : State :=
  { State.recordAll { s with env := rest } ev with seq := s.seq.advanceBy n }

/-! ### The end of a request -/

/-- A READY engine that executes no request: it accepts every operation (R31, R32, R305). -/
def State.accepting (s : State) : Prop := s.life = .ready ∧ s.seq = .idle

/-- The environment answers the port actions `acts` to their end, the events being `ev`, and has `rest` still to
answer (R7, R13). -/
def State.answers (s : State) (acts : List Action) (ev : List Event) (rest : Env) : Prop :=
  s.env = Env.giving ev rest ∧ carries acts ev = true

/-- What only INIT, a refusal, the host and the machine's maker change, unchanged (R80, R312). -/
structure OwnedUnchanged (s t : State) : Prop where
  life : t.life = s.life
  w : t.w = s.w
  h : t.h = s.h
  lutF : t.lutF = s.lutF
  lutP : t.lutP = s.lutP
  refused : t.refused = s.refused
  params : t.params = s.params
  host : t.host = s.host

/-- The instructions executed one after the other, as a host presents them, each once the one before has answered a
next state (R8, R330). -/
def execAll : List Instr → State → Option State
  | [], s => some s
  | i :: rest, s =>
    match exec i s with
    | .next t => execAll rest t
    | .fault _ => none
    | .refused _ => none

/-- The bytes sent in a trace: those of the SEND events answered ok, in order (R13, R73). -/
def sentBytes : List Event → List Byte
  | [] => []
  | .send b .ok :: es => b :: sentBytes es
  | _ :: es => sentBytes es

/-- The environment with more answers after those it has still to give. -/
def Env.append (env more : Env) : Env :=
  { pins := env.pins ++ more.pins, sends := env.sends ++ more.sends, reads := env.reads ++ more.reads,
    polls := env.polls ++ more.polls }

/-- The state with more answers of the environment to come. -/
def State.withMore (s : State) (more : Env) : State := { s with env := s.env.append more }

/-- The outcome with its next state changed by `f`. -/
def mapNext (f : State → State) (o : Host.Outcome State Fault Refusal) : Host.Outcome State Fault Refusal :=
  match o with
  | .next t => .next (f t)
  | .fault x => .fault x
  | .refused x => .refused x

/-- The state without what the engine never reads: the ghost state, the trace, the pin latches, STATUS, REFUSED
(R42, R44, R45). -/
def State.unobserved (s : State) : State :=
  { s with ghost := Ghost.reset, trace := [], csL := .unknown, dcL := .unknown, rstL := .unknown,
           status := .none, refused := false }

/-- A READ answer without the byte, which the engine discards (R80, R262). -/
def ReadAnswer.forget (a : ReadAnswer) : ReadAnswer :=
  match a with
  | .ok _ => .ok 0#8
  | .wouldblock => .wouldblock
  | .err e => .err e

/-- An event without the byte read. -/
def Event.forgetRead (e : Event) : Event :=
  match e with
  | .pin p v a => .pin p v a
  | .send b a => .send b a
  | .read a => .read a.forget
  | .poll a => .poll a
  | .delay ms => .delay ms

/-- The state with every byte read, past and to come, forgotten. -/
def State.forgetReads (s : State) : State :=
  { s with env := { s.env with reads := s.env.reads.map ReadAnswer.forget }, trace := s.trace.map Event.forgetRead }

/-! ### Illegal host encodings -/

/-- The operations whose four operand fields are "-" in R101. -/
def usesNoOperand (op : Byte) : Bool :=
  decide (op = 0x00#8 ∨ op = 0x02#8 ∨ op = 0x03#8 ∨ op = 0x04#8 ∨ op = 0x05#8 ∨ op = 0x06#8 ∨ op = 0x07#8 ∨
    op = 0x08#8 ∨ op = 0x09#8)

/-- The operations with one byte in A[7:0] (R101). -/
def usesByteOperand (op : Byte) : Bool := decide (op = 0x0B#8 ∨ op = 0x0C#8 ∨ op = 0x0D#8)

/-- The operations whose buffer is "none" in R101. -/
def usesNoBuffer (op : Byte) : Bool :=
  decide (op = 0x01#8 ∨ op = 0x02#8 ∨ op = 0x03#8 ∨ op = 0x05#8 ∨ op = 0x06#8 ∨ op = 0x07#8 ∨ op = 0x08#8 ∨
    op = 0x0B#8 ∨ op = 0x0C#8)

/-- A request that none of the six items of R103 calls illegal, item by item; the profile of item 6 is read at
the offsets of R106 and checked as R107 says. -/
structure LegalRequest (c : CommandTable) (d : Desc) (buf : List Byte) : Prop where
  item1 : (descOp d).toNat < 0x0E
  item2 : descRsv d = 0#8
  item3 : usesNoOperand (descOp d) = true →
    descA d = 0#16 ∧ descB d = 0#16 ∧ descC d = 0#16 ∧ descD d = 0#16
  item3Raw : usesByteOperand (descOp d) = true →
    (descA d).toNat < 256 ∧ descB d = 0#16 ∧ descC d = 0#16 ∧ descD d = 0#16
  item4 : usesNoBuffer (descOp d) = true → buf = []
  item5 : descOp d = 0x0B#8 ∨ descOp d = 0x0D#8 → BitVec.ofNat 8 (descA d).toNat ∈ c.catalog
  item6 : descOp d = 0x00#8 → buf.length = 71 ∧
    1 ≤ (buf.getD 0 0#8).toNat + 256 * (buf.getD 1 0#8).toNat ∧
    (buf.getD 0 0#8).toNat + 256 * (buf.getD 1 0#8).toNat ≤ 2040 ∧
    1 ≤ (buf.getD 2 0#8).toNat + 256 * (buf.getD 3 0#8).toNat ∧
    (buf.getD 2 0#8).toNat + 256 * (buf.getD 3 0#8).toNat ≤ 511 ∧
    (buf.getD 10 0#8).toNat ≤ 3

/-! ### The invariant -/

/-- A pin action on CS: after it CS is at the driven level, or X if it failed (R260). -/
def Action.drivesCs (a : Action) : Bool :=
  match a with
  | .pin p _ _ => decide (p = .cs)
  | .send _ => false
  | .read => false
  | .poll => false
  | .delay _ => false

/-- The CS level after an action performed at CS level `c`. -/
def Action.csAfter (a : Action) (c : Level) : Level :=
  match a with
  | .pin p v _ => if p = .cs then latchLevel v .ok else c
  | .send _ => c
  | .read => c
  | .poll => c
  | .delay _ => c

/-- CS is low at no point where the request can end: at the end of the actions, and at any action whose failure
neither is followed by RestoreCS nor leaves CS at X, from CS level `c` (R273). -/
def csSafe (c : Level) : List Action → Bool
  | [] => decide (c ≠ .low)
  | a :: rest => (a.guarded || a.drivesCs || decide (c ≠ .low)) && csSafe (a.csAfter c) rest

/-- W and H in the legal range (R37). -/
def legalSize (w h : Half) : Prop :=
  1 ≤ w.toNat ∧ w.toNat ≤ Config.wMax ∧ 1 ≤ h.toNat ∧ h.toNat ≤ Config.hMax

/-- LIFE and the owned registers fit the operation that executes: INIT has written its profile and set UNINIT (R151),
every other operation runs in READY (R305). -/
def fitsOperation (i : Instr) (s : State) : Prop :=
  match i with
  | .init p => s.life = .uninit ∧ s.w = p.w ∧ s.h = p.h
  | _ => s.life = .ready

/-- The request that executes spells an operation (R34, R304), µpc is in its sequence (R33), and CS is safe from µpc
on (R273). -/
def executingWell (s : State) (r : Running) : Prop :=
  match r.operation s.params.commands with
  | .error _ => False
  | .ok i =>
    fitsOperation i s ∧ r.upc ≤ (sequenceOf i s).length ∧
      (r.failing = none → csSafe s.csL (remaining i r s) = true)

/-- The invariant of the machine: tables of 30 bytes (R39, R40), legal holds (R9), a legal command table
(R121), a legal panel size once READY
(R37), and the sequencer: CS not low while no request executes (R273), a request that fits while one does. -/
structure State.Inv (s : State) : Prop where
  lutF : s.lutF.length = Config.lutLen
  lutP : s.lutP.length = Config.lutLen
  holdLow : Config.tRstMin ≤ s.params.tRstLow.toNat
  holdHigh : Config.tRstMin ≤ s.params.tRstHigh.toNat
  commands : s.params.commands.legal = true
  size : s.life = .ready → legalSize s.w s.h
  idle : s.seq = .idle → s.csL ≠ .low
  exec : ∀ r, s.seq = .exec r → executingWell s r

/-! ### Premises of claims about the controller and about presets -/

/-- A trace is hazard-free when it satisfies ¬HAZ_STRICT (R352). -/
def State.hazardFree (s : State) : Prop := s.ghost.hazStrict = false

/-- The events at which a MasterActivation byte is exchanged: a READ answered ok whose byte was sent with CS and DC
low (R357, R238). `cs`, `dc` are the latches and `sent` the byte sent and not yet read. -/
def activations (c : CommandTable) : Level → Level → Option Byte → List Event → List Bool
  | _, _, _, [] => []
  | cs, dc, sent, e :: es =>
    match e with
    | .pin .cs v a => false :: activations c (latchLevel v a) dc none es
    | .pin .dc v a => false :: activations c cs (latchLevel v a) none es
    | .pin .rst _ _ => false :: activations c cs dc none es
    | .send b .ok => false :: activations c cs dc (some b) es
    | .send _ _ => false :: activations c cs dc none es
    | .read (.ok _) =>
      (decide (cs = .low) && decide (dc = .low) && decide (sent = some (c.opcode .masterActivation))) ::
        activations c cs dc none es
    | .read .wouldblock => false :: activations c cs dc sent es
    | .read (.err _) => false :: activations c cs dc none es
    | .poll _ => false :: activations c cs dc sent es
    | .delay _ => false :: activations c cs dc sent es

/-- `BUSY_FAITHFUL` (R357) for a trace from engine reset and a schedule `running`, which says for each event whether a
triggered sequence runs on the controller when it happens: a sequence begins to run only where a MasterActivation byte
is exchanged, always runs right after that, and every POLL answers high exactly while one runs. When a sequence ends
is the controller's, so the schedule is a parameter. R357 does not say what a POLL before the first MasterActivation
reads: nothing runs then here (`before = false` forces `run = false`), so it reads low; DESIGN CHOICE, log entry 28. -/
def busyFaithfulFrom (before : Bool) : List Bool → List Event → List Bool → Bool
  | act :: acts, e :: es, run :: runs =>
    (before || !run) &&
      (match e with
       | .poll (.ok level) => decide (level = run)
       | _ => true) &&
      (match acts, runs with
       | _, next :: _ => !act || next
       | _, [] => true) &&
      busyFaithfulFrom (run || act) acts es runs
  | [], [], [] => true
  | _, _, _ => false

/-- `BUSY_FAITHFUL` of a whole trace (R357): a premise of claims about the controller, read by no engine rule. -/
def busyFaithful (c : CommandTable) (trace : List Event) (running : List Bool) : Bool :=
  busyFaithfulFrom false (activations c .unknown .unknown none trace) trace running

/-- The constraint on the two preset profiles `PRESET_A` and `PRESET_B` (R245): both 200 x 200, soft-start, VCOM,
dummy-line bytes and both tables different, gate-line width and entry mode equal. Their values are OPEN (R9, D29, log
entry 25). -/
def presetsAdmissible (a b : Profile) : Bool :=
  a.legal && b.legal &&
  decide (a.w = 200#16) && decide (b.w = 200#16) && decide (a.h = 200#16) && decide (b.h = 200#16) &&
  decide ((a.ss0, a.ss1, a.ss2) ≠ (b.ss0, b.ss1, b.ss2)) && decide (a.vcom ≠ b.vcom) &&
  decide (a.dummy ≠ b.dummy) && decide (a.lutF ≠ b.lutF) && decide (a.lutP ≠ b.lutP) &&
  decide (a.gate = b.gate) && decide (a.entry = b.entry)

end Sys2Proof.Machine
end

