-- ==== Sys2Proof/Certificates/Slice0/Obligations.lean ====
section
/-! DEFINITION. The statements for the provers. Each says, of the model, what a numbered rule of spec/ says the engine
does. `s.answers acts ev rest` reads: the environment answers the port actions `acts` to their end, the events being
`ev`, and has `rest` still to answer. An instruction's completion is stated as an equation for its whole next state, so
the equation is its frame too: what it does not name is as before. `OPC` and `CATALOG` are any (R9): where opcodes must
be told apart, the premise is that the command table is legal (R121), which the invariant keeps. -/

open Sys2Proof Sys2Proof.Machine

/-! ### Encoding -/

/-- R104, R101, R106, R121, R122: every well-formed instruction, with every operand, is decoded from its encoding,
whatever legal command table the machine has. -/
def Obligations.DecodeOfEncode : Prop :=
  ∀ (c : CommandTable) (i : Instr), c.legal = true → i.wellFormed c = true → decode c (encode c i) = .ok i

/-- R104: "every (descriptor, buffer) pair decodes either to exactly one operation": what decodes has one encoding, and
it is well formed, whatever command table the machine has. -/
def Obligations.EncodeOfDecode : Prop :=
  ∀ (c : CommandTable) (e : Encoded) (i : Instr), decode c e = .ok i → i.wellFormed c = true ∧ encode c i = e

/-- R103, R104: a request decodes to an operation exactly when none of the six items calls it illegal, whatever CATALOG
item 5 asks. -/
def Obligations.RequestDecodesUnlessIllegal : Prop :=
  ∀ (c : CommandTable) (d : Desc) (buf : List Byte),
    (∃ i, decodeRequest c { desc := d, buf := buf } = .ok i) ↔ LegalRequest c d buf

/-- R100, R101, R110: words written out from the encodings, and what they decode to by the default OPC
(DriverOutputControl and MasterActivation are source values). -/
def Obligations.WrittenWordsDecode : Prop :=
  decodeRequest Config.commands { desc := 0x0000_00C7_0018_0000_0001#80, buf := [] } =
    .ok (.setDisplayArea 0 0x18 0xC7 0) ∧
  decodeRequest Config.commands { desc := 0x0002_00C7_0002_000A_000A#80, buf := [0x55#8] } =
    .ok (.loadPartialImage 10 2 199 2 [0x55#8]) ∧
  decodeRequest Config.commands { desc := 0x0000_0000_0000_00FF_000B#80, buf := [] } = .ok (.writeCmd 0xFF) ∧
  decodeRequest Config.commands { desc := 0x0000_0000_0000_0000_0002#80, buf := [] } = .ok .loadFullLut ∧
  decodeRequest Config.commands { desc := 0x0000_0000_0000_0000_0005#80, buf := [] } = .ok .powerOn ∧
  decodeRequest Config.commands { desc := 0x0000_0000_0000_0000_0102#80, buf := [] } = .error .reservedField ∧
  decodeTransfer Config.commands { opcode := 0x01#8, payload := some [0xC7#8, 0x00#8, 0x00#8] } =
    .ok (.driverOutputControl (some [0xC7#8, 0x00#8, 0x00#8])) ∧
  decodeTransfer Config.commands { opcode := 0x20#8, payload := none } = .ok (.masterActivation none)

/-- R121, R122: in every legal command table the four opcodes the source gives have its values, the fifteen are pairwise
distinct, "so a trace decodes unambiguously", and the raw operations accept them; the default table is legal, and its
CATALOG has 21 members. -/
def Obligations.OpcodesAreTheSources : Prop :=
  (∀ c : CommandTable, c.legal = true →
    c.opcode .driverOutputControl = 0x01#8 ∧ c.opcode .masterActivation = 0x20#8 ∧ c.opcode .writeRam = 0x24#8 ∧
    c.opcode .nop = 0xFF#8 ∧
    (∀ a ∈ Command.emitted, ∀ b ∈ Command.emitted, c.opcode a = c.opcode b → a = b) ∧
    (∀ a ∈ Command.emitted, c.opcode a ∈ c.catalog)) ∧
  Config.commands.legal = true ∧ Command.emitted.length = 15 ∧ Config.commands.catalog.length = 21 ∧
  Config.commands.catalog.Nodup

/-- R16: the two bytes of a 9-bit value, by their bits. -/
def Obligations.Split9Bytes : Prop :=
  ∀ v : Nat, ∃ lo hi : Byte, split9 v = [lo, hi] ∧ lo.toNat = v % 256 ∧ hi.toNat = v / 256 % 2 ∧
    (v < 512 → lo.toNat + 256 * hi.toNat = v ∧ (join9 lo hi).toNat = v)

/-- R15: `byte_width(w) = ceil(w / 8)`, "the least integer not below" w/8 (R10), and BW is that of the owned width. -/
def Obligations.ByteWidthIsCeil : Prop :=
  (∀ w n : Nat, byteWidth w ≤ n ↔ w ≤ 8 * n) ∧ ∀ s : State, s.bw = byteWidth s.w.toNat

/-- R125 to R132: the payload packers, byte by byte; the gate count is H. -/
def Obligations.PackersLayOutPayloads : Prop :=
  (∀ h : Nat, packDriverOutput h = split9 (h - 1) ++ [0x00#8]) ∧
  (∀ a b c : Byte, packSoftStart a b c = [a, b, c]) ∧
  (∀ v : Byte, packByte v = [v]) ∧
  (∀ v : Byte, packEntry v = [v]) ∧
  (∀ xs xe : Nat, xs < 256 → xe < 256 →
    ∃ a b : Byte, packXWindow xs xe = [a, b] ∧ a.toNat = xs ∧ b.toNat = xe) ∧
  (∀ ys ye : Nat, packYWindow ys ye = split9 ys ++ split9 ye) ∧
  (∀ x : Nat, x < 256 → ∃ a : Byte, packXCounter x = [a] ∧ a.toNat = x) ∧
  (∀ y : Nat, packYCounter y = split9 y) ∧
  (∀ t : List Byte, packLut t = t)

/-- R110, R262, R270 to R272: the port actions of the three transfers; an empty payload still drives DC high. -/
def Obligations.TransferShapes : Prop :=
  (∀ b, exchange b = [.send b, .read]) ∧
  (∀ op, cmd op = [.pin .cs false true, .pin .dc false true, .send op, .read, .pin .cs true false]) ∧
  (∀ b, data b = [.pin .cs false true, .pin .dc true true, .send b, .read, .pin .cs true false]) ∧
  (∀ op, cmdString op [] =
    [.pin .cs false true, .pin .dc false true, .send op, .read, .pin .dc true true, .pin .cs true false]) ∧
  (∀ op bytes b, cmdString op (bytes ++ [b]) =
    (cmdString op bytes).dropLast ++ [.send b, .read, .pin .cs true false])

/-! ### Reset and the step -/

/-- R49, R340: the state after reset, where the spec gives it (W, H and the tables are unspecified there, log entry
5); with it no event has happened. -/
def Obligations.ResetValues : Prop :=
  State.reset.life = .uninit ∧ State.reset.seq = .idle ∧ State.reset.csL = .unknown ∧
  State.reset.dcL = .unknown ∧ State.reset.rstL = .unknown ∧ State.reset.status = .none ∧
  State.reset.refused = false ∧ State.reset.ghost.phase = .idle ∧ State.reset.ghost.updWindow = false ∧
  State.reset.ghost.shadow = { winX := none, winY := none, cntX := none, cntY := none, lutLoaded := none,
                               updMask := none, ramOpen := none } ∧
  State.reset.trace = [] ∧ State.reset.params.tRstLow = 10#16 ∧ State.reset.params.tRstHigh = 10#16

/-- R8, R32, R104: with SEQ = IDLE a step takes the next request and runs the operation it decodes to. -/
def Obligations.StepRunsDecodedRequest : Prop :=
  ∀ (s : State) (r : Request) (rest : List Request) (i : Instr),
    s.seq = .idle → s.host = r :: rest → decodeRequest s.params.commands r = .ok i →
    step s = exec i { s with host := rest }

/-- R7: "the engine takes no step except in answer to a host request". -/
def Obligations.NoRequestNoStep : Prop :=
  ∀ s : State, s.seq = .idle → s.host = [] → step s = .next s

/-- R33, R110: while a request executes, a step runs the controller command the sequencer stands before, if it stands
before one, and goes on with the request after it. -/
def Obligations.StepRunsNextCommand : Prop :=
  ∀ (s : State) (r : Running) (c : Instr),
    s.seq = .exec r → nextCommand s = some c → step s = thenResume (exec c s)

/-- R110, R270, R272: a transfer made by its raw request is the command the sequencer stands before. -/
def Obligations.RawRequestStandsBeforeItsCommand : Prop :=
  ∀ (s : State) (t : Transfer) (c : Instr), decodeTransfer s.params.commands t = .ok c →
    nextCommand { s with seq := .exec { req := rawRequest t, upc := 0, failing := none } } = some c

/-- R33, R82: running the next command by itself and then the rest is running the rest: a step of an executing request
is the operation's sequence from µpc on. The step's size is the model's choice (log entry 1). -/
def Obligations.StepFollowsSequence : Prop :=
  ∀ (s : State) (r : Running) (i : Instr),
    s.seq = .exec r → r.operation s.params.commands = .ok i → r.failing = none →
    step s = .next (settle (finishOf i) (runActions ((sequenceOf i s).drop r.upc) s))

/-- R304, R305: "a request that decodes to no operation or is presented in a LIFE where it has no meaning is refused":
no port action, STATUS unchanged, REFUSED set, SEQ IDLE, nothing else changed. -/
def Obligations.RefusalChangesOnlyRefused : Prop :=
  ∀ (s : State) (r : Request) (rest : List Request), s.seq = .idle → s.host = r :: rest →
    ((∃ x, decodeRequest s.params.commands r = .error x) ∨
      (s.life = .uninit ∧ ∀ p, decodeRequest s.params.commands r ≠ .ok (.init p))) →
    step s = .next { s with host := rest, refused := true }

/-- R7, R8, R330: an operation given while a request executes has no move, and a controller command none while no
request executes or while CS is being restored. -/
def Obligations.NoMoveOutOfTurn : Prop :=
  (∀ (i : Instr) (q : Request) (r : Running) (s : State), encode s.params.commands i = .request q → s.seq = .exec r →
    exec i s = .fault .requestWhileExecuting) ∧
  (∀ (i : Instr) (t : Transfer) (s : State), encode s.params.commands i = .transfer t → s.seq = .idle →
    exec i s = .fault .noRequestExecuting) ∧
  (∀ (i : Instr) (t : Transfer) (r : Running) (x : ErrVal) (s : State), encode s.params.commands i = .transfer t →
    s.seq = .exec r → r.failing = some x → exec i s = .fault .errorPathOpen)

/-! ### The operations to their end -/

/-- R150 to R157, R341: INIT of a legal profile, whatever LIFE is. -/
def Obligations.InitCompletes : Prop :=
  ∀ (p : Profile) (s : State) (ev : List Event) (rest : Env), p.legal = true → s.params.commands.legal = true →
    s.seq = .idle →
    s.answers
      ([.pin .rst false false, .pin .cs true false, .pin .dc true false,
        .delay s.params.tRstLow, .pin .rst true false, .delay s.params.tRstHigh]
        ++ cmdString (s.opc .driverOutputControl) (split9 (p.h.toNat - 1) ++ [0x00#8])
        ++ cmdString (s.opc .boosterSoftStartControl) [p.ss0, p.ss1, p.ss2]
        ++ cmdString (s.opc .writeVcomRegister) [p.vcom]
        ++ cmdString (s.opc .setDummyLinePeriod) [p.dummy]
        ++ cmdString (s.opc .setGateLineWidth) [p.gate]
        ++ cmdString (s.opc .dataEntryModeSetting) [p.entry]) ev rest →
    exec (.init p) s = .next
      { s with
        life := .ready, w := p.w, h := p.h, lutF := p.lutF, lutP := p.lutP, seq := .idle, status := .ok
        csL := .high, dcL := .high, rstL := .high
        trace := s.trace ++ ev, env := rest
        ghost :=
          { phase := .idle, updWindow := false, interval := none
            shadow := { winX := none, winY := none, cntX := none, cntY := none, lutLoaded := none, updMask := none,
                        ramOpen := some false }
            hazSrc := s.ghost.hazSrc || s.ghost.updWindow
            hazStrict := s.ghost.hazStrict || s.ghost.updWindow
            lutMismatch := s.ghost.lutMismatch } }

/-- R170 to R174, R178: SET_DISPLAY_AREA within bounds, on a panel of legal size. -/
def Obligations.SetDisplayAreaCompletes : Prop :=
  ∀ (xs xe ys ye : Half) (s : State) (ev : List Event) (rest : Env), s.accepting →
    s.params.commands.legal = true → legalSize s.w s.h →
    xs.toNat ≤ s.bw → xe.toNat ≤ s.bw → ys.toNat ≤ s.h.toNat → ye.toNat ≤ s.h.toNat →
    s.answers
      (cmdString (s.opc .setRamXAddressStartEndPosition) [lowByte xs, lowByte xe]
        ++ cmdString (s.opc .setRamYAddressStartEndPosition) (split9 ys.toNat ++ split9 ye.toNat)
        ++ cmdString (s.opc .setRamXAddressCounter) [lowByte xs]
        ++ cmdString (s.opc .setRamYAddressCounter) (split9 ys.toNat)) ev rest →
    exec (.setDisplayArea xs xe ys ye) s = .next
      { s with
        status := .ok, csL := .high, dcL := .high, trace := s.trace ++ ev, env := rest
        ghost := { s.ghost with
          interval := none
          shadow := { s.ghost.shadow with
            winX := some (lowByte xs, lowByte xe)
            winY := some (BitVec.ofNat 9 ys.toNat, BitVec.ofNat 9 ye.toNat)
            cntX := some (lowByte xs), cntY := some (BitVec.ofNat 9 ys.toNat), ramOpen := some false }
          hazStrict := s.ghost.hazStrict || s.ghost.updWindow } }

/-- R171, R175: the check is exactly the four bounds: a value out of its bound is a BoundsError, which writes STATUS
only, and with all four within them no BoundsError is written. -/
def Obligations.SetDisplayAreaBounds : Prop :=
  ∀ (xs xe ys ye : Half) (s : State), s.accepting →
    (¬(xs.toNat ≤ byteWidth s.w.toNat ∧ xe.toNat ≤ byteWidth s.w.toNat ∧ ys.toNat ≤ s.h.toNat ∧
        ye.toNat ≤ s.h.toNat) →
      exec (.setDisplayArea xs xe ys ye) s = .next { s with status := .boundsError }) ∧
    (xs.toNat ≤ byteWidth s.w.toNat ∧ xe.toNat ≤ byteWidth s.w.toNat ∧ ys.toNat ≤ s.h.toNat ∧
        ye.toNat ≤ s.h.toNat → s.status ≠ .boundsError →
      ∃ t, exec (.setDisplayArea xs xe ys ye) s = .next t ∧ t.status ≠ .boundsError)

/-- R190, R191: LOAD_FULL_LUT sends the owned full-update table, LOAD_PARTIAL_LUT the owned partial-update table. -/
def Obligations.LutLoadsComplete : Prop :=
  ∀ (s : State) (ev : List Event) (rest : Env), s.accepting → s.params.commands.legal = true →
    (s.lutF.length = 30 → s.answers (cmdString (s.opc .writeLutRegister) s.lutF) ev rest →
      exec .loadFullLut s = .next
        { s with
          status := .ok, csL := .high, dcL := .high, trace := s.trace ++ ev, env := rest
          ghost := { s.ghost with
            interval := none
            shadow := { s.ghost.shadow with lutLoaded := some s.lutF, ramOpen := some false }
            hazStrict := s.ghost.hazStrict || s.ghost.updWindow } }) ∧
    (s.lutP.length = 30 → s.answers (cmdString (s.opc .writeLutRegister) s.lutP) ev rest →
      exec .loadPartialLut s = .next
        { s with
          status := .ok, csL := .high, dcL := .high, trace := s.trace ++ ev, env := rest
          ghost := { s.ghost with
            interval := none
            shadow := { s.ghost.shadow with lutLoaded := some s.lutP, ramOpen := some false }
            hazStrict := s.ghost.hazStrict || s.ghost.updWindow } })

/-- R200 to R204: LOAD_IMAGE waits for BUSY low, then sends the whole buffer, of any length, in one transfer. -/
def Obligations.LoadImageCompletes : Prop :=
  ∀ (buf : List Byte) (s : State) (ev : List Event) (rest : Env), s.accepting → s.params.commands.legal = true →
    s.answers ([.poll] ++ cmdString (s.opc .writeRam) buf) ev rest →
    exec (.loadImage buf) s = .next
      { s with
        status := .ok, csL := .high, dcL := .high, trace := s.trace ++ ev, env := rest
        ghost := { s.ghost with
          interval := none
          phase := s.ghost.phase.polledLow false
          updWindow := false
          shadow := { s.ghost.shadow with ramOpen := some true } } }

/-- R201: "No pin is driven and no byte is sent until a POLL has answered `ok(0)`": in whatever LOAD_IMAGE has done
when its step ends, every event but a POLL comes after a POLL answered low. -/
def Obligations.LoadImagePollsLowFirst : Prop :=
  ∀ (buf : List Byte) (s : State), s.seq = .idle →
    ∃ t ev, exec (.loadImage buf) s = .next t ∧ t.trace = s.trace ++ ev ∧
      ∀ before e after, ev = before ++ e :: after → (∀ a, e ≠ .poll a) → Event.poll (.ok false) ∈ before

/-- R210, R212, R216, R178: LOAD_PARTIAL_IMAGE of a region that fits: window with descending Y, then the image. -/
def Obligations.LoadPartialImageCompletes : Prop :=
  ∀ (xs xw ys yh : Half) (buf : List Byte) (s : State) (ev : List Event) (rest : Env), s.accepting →
    s.params.commands.legal = true → legalSize s.w s.h → buf.length = xw.toNat * yh.toNat → 1 ≤ xw.toNat →
    1 ≤ yh.toNat → yh.toNat ≤ ys.toNat + 1 → xs.toNat + (xw.toNat - 1) ≤ s.bw → ys.toNat ≤ s.h.toNat →
    s.answers
      (cmdString (s.opc .setRamXAddressStartEndPosition)
          [BitVec.ofNat 8 xs.toNat, BitVec.ofNat 8 (xs.toNat + (xw.toNat - 1))]
        ++ cmdString (s.opc .setRamYAddressStartEndPosition)
          (split9 ys.toNat ++ split9 (ys.toNat - (yh.toNat - 1)))
        ++ cmdString (s.opc .setRamXAddressCounter) [BitVec.ofNat 8 xs.toNat]
        ++ cmdString (s.opc .setRamYAddressCounter) (split9 ys.toNat)
        ++ [.poll] ++ cmdString (s.opc .writeRam) buf) ev rest →
    exec (.loadPartialImage xs xw ys yh buf) s = .next
      { s with
        status := .ok, csL := .high, dcL := .high, trace := s.trace ++ ev, env := rest
        ghost := { s.ghost with
          interval := none
          phase := s.ghost.phase.polledLow false
          updWindow := false
          shadow := { s.ghost.shadow with
            winX := some (BitVec.ofNat 8 xs.toNat, BitVec.ofNat 8 (xs.toNat + (xw.toNat - 1)))
            winY := some (BitVec.ofNat 9 ys.toNat, BitVec.ofNat 9 (ys.toNat - (yh.toNat - 1)))
            cntX := some (BitVec.ofNat 8 xs.toNat), cntY := some (BitVec.ofNat 9 ys.toNat)
            ramOpen := some true }
          hazStrict := s.ghost.hazStrict || s.ghost.updWindow } }

/-- R210 to R214, R307: the checks of LOAD_PARTIAL_IMAGE in their order, each before any port action: length, then zero
size, negative y_end and the bounds of the derived window. Each error writes STATUS only. -/
def Obligations.LoadPartialImageChecks : Prop :=
  ∀ (xs xw ys yh : Half) (buf : List Byte) (s : State), s.accepting →
    (buf.length ≠ xw.toNat * yh.toNat →
      exec (.loadPartialImage xs xw ys yh buf) s = .next { s with status := .lengthError }) ∧
    (buf.length = xw.toNat * yh.toNat →
      (xw.toNat = 0 ∨ yh.toNat = 0 ∨ ys.toNat + 1 < yh.toNat ∨ s.bw < xs.toNat + (xw.toNat - 1) ∨
        s.h.toNat < ys.toNat) →
      exec (.loadPartialImage xs xw ys yh buf) s = .next { s with status := .boundsError })

/-- R230, R134, R238: POWER_ON. -/
def Obligations.PowerOnCompletes : Prop :=
  ∀ (s : State) (ev : List Event) (rest : Env), s.accepting → s.params.commands.legal = true →
    s.answers (cmdString (s.opc .displayUpdateControl2) [0xC0#8] ++ cmd (s.opc .masterActivation) ++ [.poll])
      ev rest →
    exec .powerOn s = .next
      { s with
        status := .ok, csL := .high, dcL := .low, trace := s.trace ++ ev, env := rest
        ghost := { s.ghost with
          interval := none
          phase := .powered
          updWindow := false
          shadow := { s.ghost.shadow with updMask := some 0xC0#8, ramOpen := some false }
          hazSrc := s.ghost.hazSrc || s.ghost.updWindow
          hazStrict := s.ghost.hazStrict || s.ghost.updWindow } }

/-- R231, R134, R235, R238, R355: UPDATE_FULL, which does not wait and closes the RAM write with a Nop. -/
def Obligations.UpdateFullCompletes : Prop :=
  ∀ (s : State) (ev : List Event) (rest : Env), s.accepting → s.params.commands.legal = true →
    s.answers (cmdString (s.opc .displayUpdateControl2) [0xC7#8] ++ cmd (s.opc .masterActivation)
      ++ cmd (s.opc .nop)) ev rest →
    exec .updateFull s = .next
      { s with
        status := .ok, csL := .high, dcL := .low, trace := s.trace ++ ev, env := rest
        ghost := { s.ghost with
          interval := none
          phase := .updatingFull
          updWindow := true
          shadow := { s.ghost.shadow with updMask := some 0xC7#8, ramOpen := some false }
          hazSrc := s.ghost.hazSrc || s.ghost.updWindow
          hazStrict := s.ghost.hazStrict || s.ghost.updWindow
          lutMismatch := s.ghost.lutMismatch || decide (s.ghost.shadow.lutLoaded ≠ some s.lutF) } }

/-- R232, R134, R235, R238, R355: UPDATE_PARTIAL. -/
def Obligations.UpdatePartialCompletes : Prop :=
  ∀ (s : State) (ev : List Event) (rest : Env), s.accepting → s.params.commands.legal = true →
    s.answers (cmdString (s.opc .displayUpdateControl2) [0x04#8] ++ cmd (s.opc .masterActivation)
      ++ cmd (s.opc .nop)) ev rest →
    exec .updatePartial s = .next
      { s with
        status := .ok, csL := .high, dcL := .low, trace := s.trace ++ ev, env := rest
        ghost := { s.ghost with
          interval := none
          phase := .updatingPartial
          updWindow := true
          shadow := { s.ghost.shadow with updMask := some 0x04#8, ramOpen := some false }
          hazSrc := s.ghost.hazSrc || s.ghost.updWindow
          hazStrict := s.ghost.hazStrict || s.ghost.updWindow
          lutMismatch := s.ghost.lutMismatch || decide (s.ghost.shadow.lutLoaded ≠ some s.lutP) } }

/-- R233, R134, R235, R238: POWER_OFF, without a wait and without a Nop; UPD_WINDOW is left as it is. -/
def Obligations.PowerOffCompletes : Prop :=
  ∀ (s : State) (ev : List Event) (rest : Env), s.accepting → s.params.commands.legal = true →
    s.answers (cmdString (s.opc .displayUpdateControl2) [0xC3#8] ++ cmd (s.opc .masterActivation)) ev rest →
    exec .powerOff s = .next
      { s with
        status := .ok, csL := .high, dcL := .low, trace := s.trace ++ ev, env := rest
        ghost := { s.ghost with
          interval := none
          phase := .poweringOff
          shadow := { s.ghost.shadow with updMask := some 0xC3#8, ramOpen := some false }
          hazSrc := s.ghost.hazSrc || s.ghost.updWindow
          hazStrict := s.ghost.hazStrict || s.ghost.updWindow } }

/-- R240 to R242, R244, R353: SHOW_FULL_SCREEN_IMAGE of an image of the panel's size: the thirteen transfers of the
canonical recipe, POWER_OFF right after UPDATE_FULL; its trace satisfies HAZ_SRC. -/
def Obligations.ShowFullScreenImageCompletes : Prop :=
  ∀ (img : List Byte) (s : State) (ev : List Event) (rest : Env), s.accepting → s.params.commands.legal = true →
    legalSize s.w s.h →
    s.lutF.length = 30 → img.length = s.bw * s.h.toNat →
    s.answers
      (cmdString (s.opc .writeLutRegister) s.lutF
        ++ cmdString (s.opc .displayUpdateControl2) [0xC0#8] ++ cmd (s.opc .masterActivation) ++ [.poll]
        ++ cmdString (s.opc .setRamXAddressStartEndPosition) [0x00#8, BitVec.ofNat 8 (s.bw - 1)]
        ++ cmdString (s.opc .setRamYAddressStartEndPosition) (split9 (s.h.toNat - 1) ++ [0x00#8, 0x00#8])
        ++ cmdString (s.opc .setRamXAddressCounter) [0x00#8]
        ++ cmdString (s.opc .setRamYAddressCounter) (split9 (s.h.toNat - 1))
        ++ [.poll] ++ cmdString (s.opc .writeRam) img
        ++ cmdString (s.opc .displayUpdateControl2) [0xC7#8] ++ cmd (s.opc .masterActivation)
        ++ cmd (s.opc .nop)
        ++ cmdString (s.opc .displayUpdateControl2) [0xC3#8] ++ cmd (s.opc .masterActivation)) ev rest →
    exec (.showFullScreenImage img) s = .next
      { s with
        status := .ok, csL := .high, dcL := .low, trace := s.trace ++ ev, env := rest
        ghost :=
          { phase := .poweringOff, updWindow := true, interval := none
            shadow :=
              { winX := some (0x00#8, BitVec.ofNat 8 (s.bw - 1))
                winY := some (BitVec.ofNat 9 (s.h.toNat - 1), 0#9)
                cntX := some 0x00#8, cntY := some (BitVec.ofNat 9 (s.h.toNat - 1))
                lutLoaded := some s.lutF, updMask := some 0xC3#8, ramOpen := some false }
            hazSrc := true, hazStrict := true, lutMismatch := s.ghost.lutMismatch } }

/-- R241: an image of another length than BW * H is a LengthError, which writes STATUS only; an image of that length
raises none. -/
def Obligations.ShowFullScreenImageLength : Prop :=
  ∀ (img : List Byte) (s : State), s.accepting →
    (img.length ≠ byteWidth s.w.toNat * s.h.toNat →
      exec (.showFullScreenImage img) s = .next { s with status := .lengthError }) ∧
    (img.length = byteWidth s.w.toNat * s.h.toNat → s.status ≠ .lengthError →
      ∃ t, exec (.showFullScreenImage img) s = .next t ∧ t.status ≠ .lengthError)

/-- R270, R274, R46, R47, R352: WRITE_CMD of a catalog opcode. A bare opcode of a command that programs a SHADOW field
leaves that field unknown (log entry 14), UPD_WINDOW goes by the last complete mask (log entries 15, 27, 29), and no raw
operation moves PHASE (R45, R238, log entry 16). -/
def Obligations.WriteCmdCompletes : Prop :=
  ∀ (op : Byte) (s : State) (ev : List Event) (rest : Env), s.accepting →
    op ∈ s.params.commands.catalog → s.answers (cmd op) ev rest →
    exec (.writeCmd op) s = .next
      { s with
        status := .ok, csL := .high, dcL := .low, trace := s.trace ++ ev, env := rest
        ghost := { s.ghost with
          interval := none
          updWindow := s.ghost.updWindow ||
            (decide (op = s.opc .masterActivation) && hasPatternStage s.ghost.shadow.updMask)
          shadow := { s.ghost.shadow with ramOpen := some (decide (op = s.opc .writeRam)) }.program
            s.params.commands op []
          hazSrc := s.ghost.hazSrc || (s.ghost.updWindow &&
            decide (op = s.opc .writeRam ∨ op = s.opc .displayUpdateControl2 ∨ op = s.opc .masterActivation))
          hazStrict := s.ghost.hazStrict || s.ghost.updWindow } }

/-- R271, R274: WRITE_DATA of any byte; a data byte is no command byte, so only the pins, the trace and STATUS change. -/
def Obligations.WriteDataCompletes : Prop :=
  ∀ (b : Byte) (s : State) (ev : List Event) (rest : Env), s.accepting → s.answers (data b) ev rest →
    exec (.writeData b) s = .next
      { s with
        status := .ok, csL := .high, dcL := .high, trace := s.trace ++ ev, env := rest
        ghost := { s.ghost with interval := none } }

/-- R272, R274, R46, R47, R352: WRITE_CMD_STRING of a catalog opcode with a payload of any length. A payload of another
length than R121's leaves its SHADOW field unknown (log entry 14), UPD_WINDOW goes by the last complete mask (log
entries 15, 27, 29), and no raw operation moves PHASE (R45, R238, log entry 16). -/
def Obligations.WriteCmdStringCompletes : Prop :=
  ∀ (op : Byte) (payload : List Byte) (s : State) (ev : List Event) (rest : Env), s.accepting →
    op ∈ s.params.commands.catalog → s.answers (cmdString op payload) ev rest →
    exec (.writeCmdString op payload) s = .next
      { s with
        status := .ok, csL := .high, dcL := .high, trace := s.trace ++ ev, env := rest
        ghost := { s.ghost with
          interval := none
          updWindow := s.ghost.updWindow ||
            (decide (op = s.opc .masterActivation) && hasPatternStage s.ghost.shadow.updMask)
          shadow := { s.ghost.shadow with ramOpen := some (decide (op = s.opc .writeRam)) }.program
            s.params.commands op payload
          hazSrc := s.ghost.hazSrc || (s.ghost.updWindow &&
            decide (op = s.opc .writeRam ∨ op = s.opc .displayUpdateControl2 ∨ op = s.opc .masterActivation))
          hazStrict := s.ghost.hazStrict || s.ghost.updWindow } }

/-- R46, R178, R190: the SHADOW field each command programs, from a payload of the documented length, and no other. -/
def Obligations.CommandsProgramShadow : Prop :=
  ∀ (sh : Shadow) (c : CommandTable), c.legal = true →
    (∀ xs xe, sh.program c (c.opcode .setRamXAddressStartEndPosition) [xs, xe] = { sh with winX := some (xs, xe) }) ∧
    (∀ ys ye, ys < 512 → ye < 512 →
      sh.program c (c.opcode .setRamYAddressStartEndPosition) (split9 ys ++ split9 ye) =
        { sh with winY := some (BitVec.ofNat 9 ys, BitVec.ofNat 9 ye) }) ∧
    (∀ x, sh.program c (c.opcode .setRamXAddressCounter) [x] = { sh with cntX := some x }) ∧
    (∀ y, y < 512 → sh.program c (c.opcode .setRamYAddressCounter) (split9 y) =
      { sh with cntY := some (BitVec.ofNat 9 y) }) ∧
    (∀ t : List Byte, t.length = 30 → sh.program c (c.opcode .writeLutRegister) t =
      { sh with lutLoaded := some t }) ∧
    (∀ m, sh.program c (c.opcode .displayUpdateControl2) [m] = { sh with updMask := some m }) ∧
    (∀ op payload, op ≠ c.opcode .setRamXAddressStartEndPosition → op ≠ c.opcode .setRamYAddressStartEndPosition →
      op ≠ c.opcode .setRamXAddressCounter → op ≠ c.opcode .setRamYAddressCounter →
      op ≠ c.opcode .writeLutRegister → op ≠ c.opcode .displayUpdateControl2 → sh.program c op payload = sh)

/-! ### The controller commands -/

/-- R110, R121, R122, R270, R272, R33: every controller command without a payload is one `Cmd` transfer of the request
that executes: DriverOutputControl, BoosterSoftStartControl, DataEntryModeSetting, MasterActivation,
DisplayUpdateControl2, WriteRam, WriteVcomRegister, WriteLutRegister, SetDummyLinePeriod, SetGateLineWidth, the four
window and counter commands, Nop, and the six of R122. The ghost state is the transfer's (R46, R47, R238, R352). Model's
choices: a command as an instruction is log entry 9, the count of five port actions log entry 6, the ghost state of a
bare command log entries 14 to 16, 27 and 29. -/
def Obligations.BareCommandsComplete : Prop :=
  ∀ (k : Command) (r : Running) (s : State) (ev : List Event) (rest : Env),
    s.seq = .exec r → r.failing = none →
    s.answers [.pin .cs false true, .pin .dc false true, .send (s.opc k), .read, .pin .cs true false] ev rest →
    exec (k.instr none) s = .next
      { s with
        seq := .exec { r with upc := r.upc + 5 }
        csL := .high, dcL := .low, trace := s.trace ++ ev, env := rest
        ghost := s.ghost.afterTransfer s.context (s.opc k) [] }

/-- R110, R121, R122, R272, R73, R33: every controller command with a payload is one `CmdString` transfer of the request
that executes, the bytes in index order; the same twenty-one commands. Model's choices: a command as an instruction is
log entry 9, the count of port actions (two for a byte) log entry 6, the ghost state of a payload of another length log
entries 14 and 27, and what MasterActivation does to it log entries 15, 16 and 29. -/
def Obligations.PayloadCommandsComplete : Prop :=
  ∀ (k : Command) (payload : List Byte) (r : Running) (s : State) (ev : List Event) (rest : Env),
    s.seq = .exec r → r.failing = none →
    s.answers ([.pin .cs false true, .pin .dc false true, .send (s.opc k), .read, .pin .dc true true]
      ++ payload.flatMap (fun b => [.send b, .read]) ++ [.pin .cs true false]) ev rest →
    exec (k.instr (some payload)) s = .next
      { s with
        seq := .exec { r with upc := r.upc + (6 + 2 * payload.length) }
        csL := .high, dcL := .high, trace := s.trace ++ ev, env := rest
        ghost := s.ghost.afterTransfer s.context (s.opc k) payload }

/-- R238, R45, R47, R134: what the MasterActivation byte of each operation does to PHASE and UPD_WINDOW: each refresh
operation moves PHASE to its own state from any state, and a transfer of any other request moves it nowhere. Model's
choices: log entries 15, 16, 27 and 29. -/
def Obligations.ActivationMovesPhase : Prop :=
  ∀ (s : State) (r : Running), s.seq = .exec r →
    (s.ghost.afterTransfer s.context (s.opc .masterActivation) []).phase =
      (if descOp r.req.desc = 0x05#8 then .poweringOn
       else if descOp r.req.desc = 0x06#8 then .updatingFull
       else if descOp r.req.desc = 0x07#8 then .updatingPartial
       else if descOp r.req.desc = 0x08#8 then .poweringOff
       else if descOp r.req.desc = 0x09#8 then
         (if s.ghost.shadow.updMask = some 0xC0#8 then .poweringOn
          else if s.ghost.shadow.updMask = some 0xC7#8 then .updatingFull
          else if s.ghost.shadow.updMask = some 0xC3#8 then .poweringOff
          else s.ghost.phase)
       else s.ghost.phase) ∧
    (s.ghost.afterTransfer s.context (s.opc .masterActivation) []).updWindow =
      (s.ghost.updWindow || match s.ghost.shadow.updMask with
        | some m => m.getLsbD 2
        | none => false)

/-- R238, R47: a POLL answered low ends a running sequence: a full update and a power-off leave Idle, a partial update
leaves Powered, POWER_ON's own wait leaves Powered, and UPD_WINDOW closes; nothing else of the state changes. -/
def Obligations.PollLowEndsSequence : Prop :=
  ∀ s : State, s.record (.poll (.ok false)) =
    { s with
      trace := s.trace ++ [.poll (.ok false)]
      ghost := { s.ghost with
        updWindow := false
        phase := match s.ghost.phase with
          | .idle => .idle
          | .poweringOn => if s.context.powerOnWait then .powered else .poweringOn
          | .powered => .powered
          | .updatingFull => .idle
          | .updatingPartial => .powered
          | .poweringOff => .idle } }

/-- R42, R260: a PIN event answered ok sets the latch of its pin to the driven level, one answered with an error sets
it to X; it writes no other latch, and no other event writes one. -/
def Obligations.PinEventsWriteLatches : Prop :=
  ∀ (s : State) (v : Bool) (a : PinAnswer),
    (s.record (.pin .cs v a)).csL = latchLevel v a ∧ (s.record (.pin .cs v a)).dcL = s.dcL ∧
    (s.record (.pin .cs v a)).rstL = s.rstL ∧
    (s.record (.pin .dc v a)).dcL = latchLevel v a ∧ (s.record (.pin .dc v a)).csL = s.csL ∧
    (s.record (.pin .dc v a)).rstL = s.rstL ∧
    (s.record (.pin .rst v a)).rstL = latchLevel v a ∧ (s.record (.pin .rst v a)).csL = s.csL ∧
    (s.record (.pin .rst v a)).dcL = s.dcL ∧
    latchLevel true .ok = .high ∧ latchLevel false .ok = .low ∧
    (∀ x, latchLevel v (.err x) = .unknown) ∧
    (∀ e, (∀ p v a, e ≠ .pin p v a) →
      (s.record e).csL = s.csL ∧ (s.record e).dcL = s.dcL ∧ (s.record e).rstL = s.rstL)

/-! ### Errors and hangs -/

/-- R303, R308, R309, R312, R243, R266: an accepted operation of a READY engine whose checks pass, and whose port
actions the environment answers up to a failure of error x: exactly those events happen, with the CS-restoring event
after an action inside a transfer; STATUS is TransportError(x), SEQ IDLE, LIFE and the owned registers as before. -/
def Obligations.TransportErrorEndsRequest : Prop :=
  ∀ (i : Instr) (q : Request) (s : State) (x : ErrVal) (ev : List Event) (rest : Env),
    encode s.params.commands i = .request q → (∀ p, i ≠ .init p) → i.wellFormed s.params.commands = true →
    s.accepting → checkOf i s = none →
    s.env = Env.giving ev rest → breaks x (sequenceOf i s) ev = true →
    ∃ t, exec i s = .next t ∧ t.seq = .idle ∧ t.status = .transportError x ∧ t.status.code = 4 ∧
      t.status.errInfo = some x ∧ t.trace = s.trace ++ ev ∧ t.env = rest ∧ OwnedUnchanged s t ∧ t.rstL = s.rstL ∧
      (s.csL ≠ .low → t.csL ≠ .low) ∧
      t = { State.recordAll { s with env := rest, seq := .exec { req := q, upc := 0, failing := none } } ev with
            seq := .idle, status := .transportError x }

/-- R158, R308, R309, R152: a failed INIT: exactly the events up to the failure and, inside a transfer, the
CS-restoring one; STATUS is TransportError(x), LIFE UNINIT, the owned registers the new profile's. -/
def Obligations.FailedInitLeavesUninit : Prop :=
  ∀ (p : Profile) (s : State) (x : ErrVal) (ev : List Event) (rest : Env),
    p.legal = true → s.seq = .idle → s.env = Env.giving ev rest →
    breaks x (initActions p { s with h := p.h }) ev = true →
    ∃ t, exec (.init p) s = .next t ∧ t.seq = .idle ∧ t.life = .uninit ∧ t.status = .transportError x ∧
      t.trace = s.trace ++ ev ∧ t.env = rest ∧ t.refused = s.refused ∧ t.params = s.params ∧ t.host = s.host ∧
      t.w = p.w ∧ t.h = p.h ∧ t.lutF = p.lutF ∧ t.lutP = p.lutP

/-- R273: "every transfer ends with CS driven high": when a controller command's transfer has ended, completed or
failed, the last event is CS driven high, and CS is not low. -/
def Obligations.TransfersEndWithCsHigh : Prop :=
  ∀ (i : Instr) (t : Transfer) (r : Running) (s u : State), encode s.params.commands i = .transfer t → s.seq = .exec r →
    exec i s = .next u →
    (u.seq = .idle ∨ u.seq = .exec { r with upc := r.upc + (transferActions t.opcode t.payload).length }) →
    ∃ ev a, u.trace = s.trace ++ ev ++ [.pin .cs true a] ∧ u.csL ≠ .low

/-- R313, R33, R263, R276: a request whose next call the environment has not answered hangs there: SEQ stays EXEC with
the request latched and µpc at that call, no status is written, nothing but the trace, the latches and the ghost
changed. That an unanswered call is an empty queue is the model's choice (log entry 2). -/
def Obligations.UnansweredRequestStaysExecuting : Prop :=
  ∀ (i : Instr) (q : Request) (s : State) (ev : List Event) (rest : Env) (n : Nat),
    encode s.params.commands i = .request q → (∀ p, i ≠ .init p) → i.wellFormed s.params.commands = true →
    s.accepting → checkOf i s = none →
    s.env = Env.giving ev rest → stalls rest (sequenceOf i s) ev n = true →
    ∃ t, exec i s = .next t ∧ t.seq = .exec { req := q, upc := n, failing := none } ∧ t.status = s.status ∧
      t.trace = s.trace ++ ev ∧ t.env = rest ∧ OwnedUnchanged s t ∧ t.rstL = s.rstL ∧
      t = { State.recordAll { s with env := rest, seq := .exec { req := q, upc := 0, failing := none } } ev with
            seq := .exec { req := q, upc := n, failing := none } }

/-- R276, R201: BUSY high for k samples and not answered after: LOAD_IMAGE hangs with no pin driven and no byte sent. -/
def Obligations.LoadImageHangsWhileBusy : Prop :=
  ∀ (buf : List Byte) (k : Nat) (s : State), s.accepting → s.env.polls = List.replicate k (.ok true) →
    exec (.loadImage buf) s = .next
      { s with
        seq := .exec { req := { desc := 0x04#80, buf := buf }, upc := 0, failing := none }
        trace := s.trace ++ List.replicate k (.poll (.ok true))
        env := { s.env with polls := [] } }

/-- R273, R308: while an error waits for RestoreCS, the answer of that one PIN event, whatever it is, ends the request
with the first error. That the wait is a state of its own is the model's choice (log entry 20). -/
def Obligations.RestoreCsEndsWithFirstError : Prop :=
  ∀ (s : State) (r : Running) (i : Instr) (x : ErrVal) (a : PinAnswer) (rest : List PinAnswer),
    s.seq = .exec r → r.operation s.params.commands = .ok i → r.failing = some x → s.env.pins = a :: rest →
    ∃ t, step s = .next t ∧ t.seq = .idle ∧ t.status = .transportError x ∧ t.csL = latchLevel true a ∧
      t.dcL = s.dcL ∧ t.rstL = s.rstL ∧ t.trace = s.trace ++ [.pin .cs true a] ∧
      t.env = { s.env with pins := rest } ∧ OwnedUnchanged s t

/-! ### Rules of the whole machine -/

/-- R31, R33, R34, R37, R39, R40, R273: every step of a state that meets the invariant goes on to a state that meets
it: the machine never faults and never refuses an instruction, the tables keep their thirty bytes, the panel size is
legal once READY, and CS is not low while no request executes. -/
def Obligations.StepKeepsInvariant : Prop :=
  ∀ s : State, s.Inv → ∃ t, step s = .next t ∧ t.Inv

/-- R49, R340: the invariant holds after reset. -/
def Obligations.ResetMeetsInvariant : Prop := State.reset.Inv

/-- R35, R36, R39, R40, R80, R312: only INIT writes W, H, LUT_F, LUT_P and LIFE; every other instruction, completed,
failed, refused or hung, leaves them, and REFUSED once set. -/
def Obligations.OnlyInitWritesOwnedRegisters : Prop :=
  ∀ (i : Instr) (s t : State), (∀ p, i ≠ .init p) → exec i s = .next t →
    t.w = s.w ∧ t.h = s.h ∧ t.lutF = s.lutF ∧ t.lutP = s.lutP ∧ t.life = s.life ∧ t.params = s.params ∧
      (s.refused = true → t.refused = true)

/-- R151, R31, R156, R158: INIT of a legal profile, whatever LIFE is and whatever the environment answers, writes the
owned registers from the profile, and LIFE is READY after it exactly when it has ended with OK. -/
def Obligations.InitWritesProfileAtAcceptance : Prop :=
  ∀ (p : Profile) (s : State), p.legal = true → s.seq = .idle →
    ∃ t, exec (.init p) s = .next t ∧ t.w = p.w ∧ t.h = p.h ∧ t.lutF = p.lutF ∧ t.lutP = p.lutP ∧
      t.refused = s.refused ∧ t.host = s.host ∧ t.params = s.params ∧
      ((t.life = .ready ∧ t.seq = .idle ∧ t.status = .ok) ∨
       (t.life = .uninit ∧ t.seq = .idle ∧ ∃ x, t.status = .transportError x) ∨
       (t.life = .uninit ∧ t.seq ≠ .idle ∧ t.status = s.status))

/-- R43, R313: STATUS is written at the end of a request only: while a request still executes after a step, STATUS is
as before, and REFUSED is never cleared (R44). -/
def Obligations.StatusWrittenAtEndOnly : Prop :=
  ∀ s t : State, step s = .next t →
    (∀ r, t.seq = .exec r → t.status = s.status) ∧ (s.refused = true → t.refused = true)

/-- R42, R84, R155, R265, R341: what happens in an instruction's events: they follow the old trace, which is kept; RST
is driven and a delay made by INIT only, BUSY is sampled by LOAD_IMAGE, POWER_ON and the two wrappers only. -/
def Obligations.OnlySomeOperationsTouchRstAndBusy : Prop :=
  ∀ (i : Instr) (s t : State), exec i s = .next t →
    ∃ ev, t.trace = s.trace ++ ev ∧
      ((∀ p, i ≠ .init p) → ∀ e ∈ ev, (∀ v a, e ≠ .pin .rst v a) ∧ (∀ ms, e ≠ .delay ms)) ∧
      ((∀ b, i ≠ .loadImage b) → i ≠ .powerOn → (∀ b, i ≠ .showFullScreenImage b) →
        (∀ xs xw ys yh b, i ≠ .loadPartialImage xs xw ys yh b) → ∀ e ∈ ev, ∀ a, e ≠ .poll a)

/-- R193: any two LOAD_FULL_LUT, or two LOAD_PARTIAL_LUT, that complete with no INIT between them send the identical
bytes, the opcode and the owned table (thirty bytes, by the invariant), whatever other requests come between. -/
def Obligations.LutLoadsAreIdempotent : Prop :=
  ∀ (load : Instr) (between : List Instr) (s t u v : State), load = .loadFullLut ∨ load = .loadPartialLut →
    (∀ i ∈ between, ∀ p, i ≠ .init p) → s.accepting → exec load s = .next t → t.seq = .idle → t.status = .ok →
    execAll between t = some u → u.seq = .idle → exec load u = .next v → v.seq = .idle → v.status = .ok →
    ∃ ev ev', t.trace = s.trace ++ ev ∧ v.trace = u.trace ++ ev' ∧ sentBytes ev = sentBytes ev' ∧
      sentBytes ev = s.opc .writeLutRegister :: (if load = .loadFullLut then s.lutF else s.lutP) ∧
      (s.lutF.length = 30 → s.lutP.length = 30 → (sentBytes ev).length = 31)

/-- R353: "Every successful SHOW_FULL_SCREEN_IMAGE trace satisfies HAZ_SRC", and, as R355 says, it mismatches no
table of its own. -/
def Obligations.SuccessfulShowHasHazard : Prop :=
  ∀ (img : List Byte) (s t : State), s.accepting → s.params.commands.legal = true → s.lutF.length = 30 →
    exec (.showFullScreenImage img) s = .next t → t.seq = .idle → t.status = .ok →
    t.ghost.hazSrc = true ∧ t.ghost.hazStrict = true ∧ t.ghost.lutMismatch = s.ghost.lutMismatch

/-- R352: HAZ_SRC implies HAZ_STRICT: every step keeps the implication. -/
def Obligations.HazSrcImpliesHazStrict : Prop :=
  ∀ s t : State, s.params.commands.legal = true → (s.ghost.hazSrc = true → s.ghost.hazStrict = true) →
    step s = .next t →
    (t.ghost.hazSrc = true → t.ghost.hazStrict = true)

/-- R45, R237: "updated by the refresh operations only": the window, table and raw operations leave PHASE as it is,
however they end, refused or not. -/
def Obligations.OtherOperationsKeepPhase : Prop :=
  ∀ (i : Instr) (s t : State),
    (∃ xs xe ys ye, i = .setDisplayArea xs xe ys ye) ∨ i = .loadFullLut ∨ i = .loadPartialLut ∨
      (∃ op, i = .writeCmd op) ∨ (∃ b, i = .writeData b) ∨ (∃ op buf, i = .writeCmdString op buf) →
    exec i s = .next t → t.ghost.phase = s.ghost.phase

/-- R30, R42, R44, R45: the engine's actions depend on no pin latch, no STATUS, no REFUSED, no ghost state and no past
trace: two states that agree on everything else take the same step, with the same new events. -/
def Obligations.EngineIgnoresWhatItOnlyWrites : Prop :=
  ∀ s s' t : State, s.unobserved = s'.unobserved → step s = .next t →
    ∃ t' ev, step s' = .next t' ∧ t'.unobserved = t.unobserved ∧ t.trace = s.trace ++ ev ∧ t'.trace = s'.trace ++ ev

/-- R80, R262: "the engine attaches no meaning to it and no rule depends on its value": the bytes a READ returns change
nothing but the trace that records them. -/
def Obligations.BytesReadHaveNoEffect : Prop :=
  ∀ s : State, step s.forgetReads = mapNext State.forgetReads (step s)

/-- R82, R33: it does not matter when the environment answers: a request that waits and goes on once more answers have
come ends as it would have ended had they been there from the start. This is what the model's step size and its
waiting states rest on (log entries 1, 2). -/
def Obligations.LateAnswersChangeNothing : Prop :=
  ∀ (i : Instr) (s t : State) (more : Env), s.seq = .idle → exec i s = .next t →
    exec i (s.withMore more) =
      match t.seq with
      | .idle => .next (t.withMore more)
      | .exec _ => step (t.withMore more)

/-- R245: two admissible presets: the payloads packed from them are the same gate count, gate-line and entry-mode bytes,
and different soft-start, VCOM and dummy-line bytes and tables. -/
def Obligations.PresetsDifferWhereTheSpecSays : Prop :=
  ∀ a b : Profile, presetsAdmissible a b = true →
    packDriverOutput a.h.toNat = [0xC7#8, 0x00#8, 0x00#8] ∧
    packDriverOutput b.h.toNat = [0xC7#8, 0x00#8, 0x00#8] ∧
    packSoftStart a.ss0 a.ss1 a.ss2 ≠ packSoftStart b.ss0 b.ss1 b.ss2 ∧
    packByte a.vcom ≠ packByte b.vcom ∧ packByte a.dummy ≠ packByte b.dummy ∧
    packByte a.gate = packByte b.gate ∧ packEntry a.entry = packEntry b.entry ∧
    packLut a.lutF ≠ packLut b.lutF ∧ packLut a.lutP ≠ packLut b.lutP
end

