-- ==== Sys2Proof/Laws/Catalog.lean ====
section
/-! SUPPORT. The small laws of a command table (spec/30_encoding.md R121, R122): in a legal one an opcode byte names one
command, so that comparing opcodes is comparing names. -/

namespace Sys2Proof

theorem Command.mem_all (k : Command) : k ∈ Command.all := by cases k <;> decide

theorem CommandTable.nodup_of_legal {c : CommandTable} (h : c.legal = true) : (Command.all.map c.opcode).Nodup := by
  simp only [CommandTable.legal, Bool.and_eq_true, decide_eq_true_eq] at h
  exact h.1.2

/-- In a legal table two commands have the same opcode only if they are the same (R121). -/
theorem CommandTable.opcode_inj {c : CommandTable} (h : c.legal = true) (a b : Command) :
    c.opcode a = c.opcode b ↔ a = b :=
  ⟨fun e => List.inj_on_of_nodup_map (CommandTable.nodup_of_legal h) (Command.mem_all a) (Command.mem_all b) e,
    fun e => e ▸ rfl⟩

/-- The command an opcode byte is found to name has that opcode. -/
theorem CommandTable.opcode_of_commandOf {c : CommandTable} {op : Byte} {k : Command} (h : c.commandOf op = some k) :
    c.opcode k = op := by
  simpa using List.find?_some h

/-- In a legal table the opcode of a command names that command. -/
theorem CommandTable.commandOf_opcode {c : CommandTable} (h : c.legal = true) (k : Command) :
    c.commandOf (c.opcode k) = some k := by
  cases hf : c.commandOf (c.opcode k) with
  | none => simpa using List.find?_eq_none.mp hf k (Command.mem_all k)
  | some j => rw [(CommandTable.opcode_inj h j k).mp (CommandTable.opcode_of_commandOf hf)]

/-- The four source values (R121). -/
theorem CommandTable.source_values {c : CommandTable} (h : c.legal = true) :
    c.opcode .driverOutputControl = 0x01#8 ∧ c.opcode .masterActivation = 0x20#8 ∧ c.opcode .writeRam = 0x24#8 ∧
      c.opcode .nop = 0xFF#8 := by
  simp only [CommandTable.legal, Bool.and_eq_true, decide_eq_true_eq] at h
  exact ⟨h.1.1.1.1.1, h.1.1.1.1.2, h.1.1.1.2, h.1.1.2⟩

/-- In a legal table the commands the operations emit are in CATALOG (R122). -/
theorem CommandTable.emitted_mem_catalog {c : CommandTable} (h : c.legal = true) {k : Command}
    (hk : k ∈ Command.emitted) : c.opcode k ∈ c.catalog := by
  simp only [CommandTable.legal, Bool.and_eq_true, List.all_eq_true] at h
  simpa using h.2 k hk

/-- The encoding of a command is its transfer (R110). -/
theorem encode_instr (c : CommandTable) (k : Command) (p : Payload) :
    encode c (k.instr p) = .transfer { opcode := c.opcode k, payload := p } := by
  cases k <;> rfl

/-- A controller command is one of the named ones, with a payload. -/
theorem instr_of_encode {c : CommandTable} {i : Instr} {t : Transfer} (h : encode c i = .transfer t) :
    ∃ k : Command, i = k.instr t.payload ∧ t.opcode = c.opcode k := by
  cases i <;> simp only [encode, reduceCtorEq, Encoded.transfer.injEq] at h <;> subst h <;>
    first
    | exact ⟨.driverOutputControl, rfl, rfl⟩ | exact ⟨.boosterSoftStartControl, rfl, rfl⟩
    | exact ⟨.dataEntryModeSetting, rfl, rfl⟩ | exact ⟨.masterActivation, rfl, rfl⟩
    | exact ⟨.displayUpdateControl2, rfl, rfl⟩ | exact ⟨.writeRam, rfl, rfl⟩
    | exact ⟨.writeVcomRegister, rfl, rfl⟩ | exact ⟨.writeLutRegister, rfl, rfl⟩
    | exact ⟨.setDummyLinePeriod, rfl, rfl⟩ | exact ⟨.setGateLineWidth, rfl, rfl⟩
    | exact ⟨.setRamXAddressStartEndPosition, rfl, rfl⟩ | exact ⟨.setRamYAddressStartEndPosition, rfl, rfl⟩
    | exact ⟨.setRamXAddressCounter, rfl, rfl⟩ | exact ⟨.setRamYAddressCounter, rfl, rfl⟩
    | exact ⟨.nop, rfl, rfl⟩ | exact ⟨.gateScanStartPosition, rfl, rfl⟩
    | exact ⟨.deepSleepMode, rfl, rfl⟩ | exact ⟨.swReset, rfl, rfl⟩
    | exact ⟨.temperatureSensorControl, rfl, rfl⟩ | exact ⟨.displayUpdateControl1, rfl, rfl⟩
    | exact ⟨.borderWaveformControl, rfl, rfl⟩

end Sys2Proof
end

