-- ==== Sys2Proof/Laws/Encoding.lean ====
section
/-! SUPPORT. The small laws of the encodings: the fields of a written-out descriptor, of an operand byte, of a 16-bit
value in two bytes, and of a profile image (spec/30_encoding.md R100, R106). -/

namespace Sys2Proof

theorem toNat_append_add {n m : Nat} (x : BitVec n) (y : BitVec m) :
    (x ++ y).toNat = x.toNat * 2 ^ m + y.toNat := by
  rw [BitVec.toNat_append, ← Nat.shiftLeft_add_eq_or_of_lt y.isLt, Nat.shiftLeft_eq]

/-- A descriptor as a number. -/
theorem mkDesc_toNat (op : Byte) (a b c d : Half) :
    (mkDesc op a b c d).toNat =
      op.toNat + a.toNat * 2 ^ 16 + b.toNat * 2 ^ 32 + c.toNat * 2 ^ 48 + d.toNat * 2 ^ 64 := by
  have h : (mkDesc op a b c d).toNat =
      (((((d.toNat * 2 ^ 16 + c.toNat) * 2 ^ 16 + b.toNat) * 2 ^ 16 + a.toNat) * 2 ^ 8 + 0) * 2 ^ 8 + op.toNat) := by
    rw [← toNat_append_add, ← toNat_append_add, ← toNat_append_add]
    rw [show (0 : Nat) = (0x00#8).toNat from rfl, ← toNat_append_add, ← toNat_append_add]
    rfl
  rw [h]
  omega

@[simp] theorem descOp_mkDesc (op : Byte) (a b c d : Half) : descOp (mkDesc op a b c d) = op := by
  apply BitVec.eq_of_toNat_eq
  rw [descOp, BitVec.extractLsb'_toNat, mkDesc_toNat, Nat.shiftRight_eq_div_pow]
  omega

@[simp] theorem descRsv_mkDesc (op : Byte) (a b c d : Half) : descRsv (mkDesc op a b c d) = 0#8 := by
  apply BitVec.eq_of_toNat_eq
  rw [descRsv, BitVec.extractLsb'_toNat, mkDesc_toNat, Nat.shiftRight_eq_div_pow, BitVec.toNat_ofNat]
  omega

@[simp] theorem descA_mkDesc (op : Byte) (a b c d : Half) : descA (mkDesc op a b c d) = a := by
  apply BitVec.eq_of_toNat_eq
  rw [descA, BitVec.extractLsb'_toNat, mkDesc_toNat, Nat.shiftRight_eq_div_pow]
  omega

@[simp] theorem descB_mkDesc (op : Byte) (a b c d : Half) : descB (mkDesc op a b c d) = b := by
  apply BitVec.eq_of_toNat_eq
  rw [descB, BitVec.extractLsb'_toNat, mkDesc_toNat, Nat.shiftRight_eq_div_pow]
  omega

@[simp] theorem descC_mkDesc (op : Byte) (a b c d : Half) : descC (mkDesc op a b c d) = c := by
  apply BitVec.eq_of_toNat_eq
  rw [descC, BitVec.extractLsb'_toNat, mkDesc_toNat, Nat.shiftRight_eq_div_pow]
  omega

@[simp] theorem descD_mkDesc (op : Byte) (a b c d : Half) : descD (mkDesc op a b c d) = d := by
  apply BitVec.eq_of_toNat_eq
  rw [descD, BitVec.extractLsb'_toNat, mkDesc_toNat, Nat.shiftRight_eq_div_pow]
  omega

/-- A descriptor is its fields: two with the same fields are the same (R100). -/
theorem mkDesc_of_fields (d : Desc) (h : descRsv d = 0#8) :
    d = mkDesc (descOp d) (descA d) (descB d) (descC d) (descD d) := by
  apply BitVec.eq_of_toNat_eq
  have h' := congrArg BitVec.toNat h
  rw [descRsv, BitVec.extractLsb'_toNat, Nat.shiftRight_eq_div_pow, BitVec.toNat_ofNat] at h'
  rw [mkDesc_toNat]
  simp only [descOp, descA, descB, descC, descD, BitVec.extractLsb'_toNat, Nat.shiftRight_eq_div_pow]
  have := d.isLt
  omega

@[simp] theorem lowByte_byteOperand (b : Byte) : lowByte (byteOperand b) = b := by
  apply BitVec.eq_of_toNat_eq
  have h : (byteOperand b).toNat = 0 * 2 ^ 8 + b.toNat := toNat_append_add (0x00#8) b
  rw [lowByte, BitVec.extractLsb'_toNat, h, Nat.shiftRight_eq_div_pow]
  omega

@[simp] theorem highByte_byteOperand (b : Byte) : highByte (byteOperand b) = 0#8 := by
  apply BitVec.eq_of_toNat_eq
  have h : (byteOperand b).toNat = 0 * 2 ^ 8 + b.toNat := toNat_append_add (0x00#8) b
  rw [highByte, BitVec.extractLsb'_toNat, h, Nat.shiftRight_eq_div_pow, BitVec.toNat_ofNat]
  omega

theorem byteOperand_lowByte (v : Half) (h : highByte v = 0#8) : byteOperand (lowByte v) = v := by
  apply BitVec.eq_of_toNat_eq
  have h' := congrArg BitVec.toNat h
  rw [highByte, BitVec.extractLsb'_toNat, Nat.shiftRight_eq_div_pow, BitVec.toNat_ofNat] at h'
  have h2 : (byteOperand (lowByte v)).toNat = 0 * 2 ^ 8 + (lowByte v).toNat := toNat_append_add (0x00#8) _
  rw [h2, lowByte, BitVec.extractLsb'_toNat, Nat.shiftRight_eq_div_pow]
  have := v.isLt
  omega

@[simp] theorem halfOfBytes_bytes (v : Half) : halfOfBytes (lowByte v) (highByte v) = v := by
  apply BitVec.eq_of_toNat_eq
  have h : (halfOfBytes (lowByte v) (highByte v)).toNat = (highByte v).toNat * 2 ^ 8 + (lowByte v).toNat :=
    toNat_append_add _ _
  rw [h, lowByte, highByte, BitVec.extractLsb'_toNat, BitVec.extractLsb'_toNat, Nat.shiftRight_eq_div_pow,
    Nat.shiftRight_eq_div_pow]
  have := v.isLt
  omega

@[simp] theorem lowByte_halfOfBytes (lo hi : Byte) : lowByte (halfOfBytes lo hi) = lo := by
  apply BitVec.eq_of_toNat_eq
  have h : (halfOfBytes lo hi).toNat = hi.toNat * 2 ^ 8 + lo.toNat := toNat_append_add _ _
  rw [lowByte, BitVec.extractLsb'_toNat, h, Nat.shiftRight_eq_div_pow]
  omega

@[simp] theorem highByte_halfOfBytes (lo hi : Byte) : highByte (halfOfBytes lo hi) = hi := by
  apply BitVec.eq_of_toNat_eq
  have h : (halfOfBytes lo hi).toNat = hi.toNat * 2 ^ 8 + lo.toNat := toNat_append_add _ _
  rw [highByte, BitVec.extractLsb'_toNat, h, Nat.shiftRight_eq_div_pow]
  have := lo.isLt
  omega

/-- A profile image with two 30-byte tables decodes to its profile (R106). -/
theorem decodeProfile_encodeProfile (p : Profile) (hf : p.lutF.length = Config.lutLen)
    (hp : p.lutP.length = Config.lutLen) : decodeProfile (encodeProfile p) = .ok p := by
  obtain ⟨⟩ := p
  simp_all [decodeProfile, encodeProfile]

/-- What a profile image decodes to has two 30-byte tables and encodes to that image (R106). -/
theorem encodeProfile_of_decodeProfile {buf : List Byte} {p : Profile} (h : decodeProfile buf = .ok p) :
    encodeProfile p = buf ∧ p.lutF.length = Config.lutLen ∧ p.lutP.length = Config.lutLen := by
  unfold decodeProfile at h
  split at h
  · split at h
    · rename_i hl
      simp only [Except.ok.injEq] at h
      subst h
      simp [encodeProfile, hl]
    · simp at h
  · simp at h

end Sys2Proof
end

