-- ==== Sys2Proof/Laws/PerInstr.lean ====
section
/-! SUPPORT. The family RowBits: the encoding of every instruction, by the default command table, carries the bits spec/opcode_table.json fixes for its
row: OP and RSV = 0 of a descriptor, the operand fields of R101's "-" at 0, the opcode byte of a transfer. -/

namespace Sys2Proof.Laws.RowBits

/-- OP of a host operation's row, or the opcode of a controller command's (spec/opcode_table.json, "match"). -/
def rowCode : Instr → Byte
  | .init _ => 0x00#8
  | .setDisplayArea _ _ _ _ => 0x01#8
  | .loadFullLut => 0x02#8
  | .loadPartialLut => 0x03#8
  | .loadImage _ => 0x04#8
  | .powerOn => 0x05#8
  | .updateFull => 0x06#8
  | .updatePartial => 0x07#8
  | .powerOff => 0x08#8
  | .showFullScreenImage _ => 0x09#8
  | .loadPartialImage _ _ _ _ _ => 0x0A#8
  | .writeCmd _ => 0x0B#8
  | .writeData _ => 0x0C#8
  | .writeCmdString _ _ => 0x0D#8
  | .driverOutputControl _ => 0x01#8
  | .boosterSoftStartControl _ => 0x0C#8
  | .dataEntryModeSetting _ => 0x11#8
  | .masterActivation _ => 0x20#8
  | .displayUpdateControl2 _ => 0x22#8
  | .writeRam _ => 0x24#8
  | .writeVcomRegister _ => 0x2C#8
  | .writeLutRegister _ => 0x32#8
  | .setDummyLinePeriod _ => 0x3A#8
  | .setGateLineWidth _ => 0x3B#8
  | .setRamXAddressStartEndPosition _ => 0x44#8
  | .setRamYAddressStartEndPosition _ => 0x45#8
  | .setRamXAddressCounter _ => 0x4E#8
  | .setRamYAddressCounter _ => 0x4F#8
  | .nop _ => 0xFF#8
  | .gateScanStartPosition _ => 0x0F#8
  | .deepSleepMode _ => 0x10#8
  | .swReset _ => 0x12#8
  | .temperatureSensorControl _ => 0x1A#8
  | .displayUpdateControl1 _ => 0x21#8
  | .borderWaveformControl _ => 0x3C#8

/-- The encoding of `i` carries its row's fixed bits. -/
def Statement (i : Instr) : Prop :=
  match encode Config.commands i with
  | .request r => descOp r.desc = rowCode i ∧ descRsv r.desc = 0#8
  | .transfer t => t.opcode = rowCode i

theorem init (p : Profile) : Statement (.init p) := by simp [Statement, encode, bareRequest, rowCode]

theorem setDisplayArea (xs : Half) (xe : Half) (ys : Half) (ye : Half) : Statement (.setDisplayArea xs xe ys ye) := by simp [Statement, encode, rowCode]

theorem loadFullLut : Statement (.loadFullLut) := by simp [Statement, encode, bareRequest, rowCode]

theorem loadPartialLut : Statement (.loadPartialLut) := by simp [Statement, encode, bareRequest, rowCode]

theorem loadImage (buf : List Byte) : Statement (.loadImage buf) := by simp [Statement, encode, bareRequest, rowCode]

theorem powerOn : Statement (.powerOn) := by simp [Statement, encode, bareRequest, rowCode]

theorem updateFull : Statement (.updateFull) := by simp [Statement, encode, bareRequest, rowCode]

theorem updatePartial : Statement (.updatePartial) := by simp [Statement, encode, bareRequest, rowCode]

theorem powerOff : Statement (.powerOff) := by simp [Statement, encode, bareRequest, rowCode]

theorem showFullScreenImage (buf : List Byte) : Statement (.showFullScreenImage buf) := by simp [Statement, encode, bareRequest, rowCode]

theorem loadPartialImage (xs : Half) (xw : Half) (ys : Half) (yh : Half) (buf : List Byte) : Statement (.loadPartialImage xs xw ys yh buf) := by simp [Statement, encode, rowCode]

theorem writeCmd (op : Byte) : Statement (.writeCmd op) := by simp [Statement, encode, rowCode]

theorem writeData (b : Byte) : Statement (.writeData b) := by simp [Statement, encode, rowCode]

theorem writeCmdString (op : Byte) (buf : List Byte) : Statement (.writeCmdString op buf) := by simp [Statement, encode, rowCode]

theorem driverOutputControl (p : Payload) : Statement (.driverOutputControl p) := rfl

theorem boosterSoftStartControl (p : Payload) : Statement (.boosterSoftStartControl p) := rfl

theorem dataEntryModeSetting (p : Payload) : Statement (.dataEntryModeSetting p) := rfl

theorem masterActivation (p : Payload) : Statement (.masterActivation p) := rfl

theorem displayUpdateControl2 (p : Payload) : Statement (.displayUpdateControl2 p) := rfl

theorem writeRam (p : Payload) : Statement (.writeRam p) := rfl

theorem writeVcomRegister (p : Payload) : Statement (.writeVcomRegister p) := rfl

theorem writeLutRegister (p : Payload) : Statement (.writeLutRegister p) := rfl

theorem setDummyLinePeriod (p : Payload) : Statement (.setDummyLinePeriod p) := rfl

theorem setGateLineWidth (p : Payload) : Statement (.setGateLineWidth p) := rfl

theorem setRamXAddressStartEndPosition (p : Payload) : Statement (.setRamXAddressStartEndPosition p) := rfl

theorem setRamYAddressStartEndPosition (p : Payload) : Statement (.setRamYAddressStartEndPosition p) := rfl

theorem setRamXAddressCounter (p : Payload) : Statement (.setRamXAddressCounter p) := rfl

theorem setRamYAddressCounter (p : Payload) : Statement (.setRamYAddressCounter p) := rfl

theorem nop (p : Payload) : Statement (.nop p) := rfl

theorem gateScanStartPosition (p : Payload) : Statement (.gateScanStartPosition p) := rfl

theorem deepSleepMode (p : Payload) : Statement (.deepSleepMode p) := rfl

theorem swReset (p : Payload) : Statement (.swReset p) := rfl

theorem temperatureSensorControl (p : Payload) : Statement (.temperatureSensorControl p) := rfl

theorem displayUpdateControl1 (p : Payload) : Statement (.displayUpdateControl1 p) := rfl

theorem borderWaveformControl (p : Payload) : Statement (.borderWaveformControl p) := rfl

end Sys2Proof.Laws.RowBits
end

