-- ==== Sys2Proof/Laws/State.lean ====
section
/-! SUPPORT. One lemma per field per update of `State`, so that no proof unfolds a record update. -/

namespace Sys2Proof.Machine

@[simp] theorem latch_life (s : State) (e : Event) : (s.latch e).life = s.life := by
  unfold State.latch; (repeat' split) <;> rfl
@[simp] theorem latch_seq (s : State) (e : Event) : (s.latch e).seq = s.seq := by
  unfold State.latch; (repeat' split) <;> rfl
@[simp] theorem latch_w (s : State) (e : Event) : (s.latch e).w = s.w := by
  unfold State.latch; (repeat' split) <;> rfl
@[simp] theorem latch_h (s : State) (e : Event) : (s.latch e).h = s.h := by
  unfold State.latch; (repeat' split) <;> rfl
@[simp] theorem latch_lutF (s : State) (e : Event) : (s.latch e).lutF = s.lutF := by
  unfold State.latch; (repeat' split) <;> rfl
@[simp] theorem latch_lutP (s : State) (e : Event) : (s.latch e).lutP = s.lutP := by
  unfold State.latch; (repeat' split) <;> rfl
@[simp] theorem latch_status (s : State) (e : Event) : (s.latch e).status = s.status := by
  unfold State.latch; (repeat' split) <;> rfl
@[simp] theorem latch_refused (s : State) (e : Event) : (s.latch e).refused = s.refused := by
  unfold State.latch; (repeat' split) <;> rfl
@[simp] theorem latch_ghost (s : State) (e : Event) : (s.latch e).ghost = s.ghost := by
  unfold State.latch; (repeat' split) <;> rfl
@[simp] theorem latch_trace (s : State) (e : Event) : (s.latch e).trace = s.trace := by
  unfold State.latch; (repeat' split) <;> rfl
@[simp] theorem latch_env (s : State) (e : Event) : (s.latch e).env = s.env := by
  unfold State.latch; (repeat' split) <;> rfl
@[simp] theorem latch_host (s : State) (e : Event) : (s.latch e).host = s.host := by
  unfold State.latch; (repeat' split) <;> rfl
@[simp] theorem latch_params (s : State) (e : Event) : (s.latch e).params = s.params := by
  unfold State.latch; (repeat' split) <;> rfl

/-! The latch of an event, pin by pin (R42). -/

@[simp] theorem latch_pin_cs (s : State) (v : Bool) (a : PinAnswer) :
    s.latch (.pin .cs v a) = { s with csL := latchLevel v a } := rfl

@[simp] theorem latch_pin_dc (s : State) (v : Bool) (a : PinAnswer) :
    s.latch (.pin .dc v a) = { s with dcL := latchLevel v a } := rfl

@[simp] theorem latch_pin_rst (s : State) (v : Bool) (a : PinAnswer) :
    s.latch (.pin .rst v a) = { s with rstL := latchLevel v a } := rfl

@[simp] theorem latch_send (s : State) (b : Byte) (a : SendAnswer) : s.latch (.send b a) = s := rfl

@[simp] theorem latch_read (s : State) (a : ReadAnswer) : s.latch (.read a) = s := rfl

@[simp] theorem latch_poll (s : State) (a : PollAnswer) : s.latch (.poll a) = s := rfl

@[simp] theorem latch_delay (s : State) (ms : Half) : s.latch (.delay ms) = s := rfl

@[simp] theorem latchLevel_ok_true : latchLevel true .ok = .high := rfl

@[simp] theorem latchLevel_ok_false : latchLevel false .ok = .low := rfl

@[simp] theorem latchLevel_err (v : Bool) (e : ErrVal) : latchLevel v (.err e) = .unknown := rfl

@[simp] theorem record_life (s : State) (e : Event) : (s.record e).life = s.life := latch_life s e
@[simp] theorem record_seq (s : State) (e : Event) : (s.record e).seq = s.seq := latch_seq s e
@[simp] theorem record_w (s : State) (e : Event) : (s.record e).w = s.w := latch_w s e
@[simp] theorem record_h (s : State) (e : Event) : (s.record e).h = s.h := latch_h s e
@[simp] theorem record_lutF (s : State) (e : Event) : (s.record e).lutF = s.lutF := latch_lutF s e
@[simp] theorem record_lutP (s : State) (e : Event) : (s.record e).lutP = s.lutP := latch_lutP s e
@[simp] theorem record_csL (s : State) (e : Event) : (s.record e).csL = (s.latch e).csL := rfl
@[simp] theorem record_dcL (s : State) (e : Event) : (s.record e).dcL = (s.latch e).dcL := rfl
@[simp] theorem record_rstL (s : State) (e : Event) : (s.record e).rstL = (s.latch e).rstL := rfl
@[simp] theorem record_status (s : State) (e : Event) : (s.record e).status = s.status := latch_status s e
@[simp] theorem record_refused (s : State) (e : Event) : (s.record e).refused = s.refused := latch_refused s e
@[simp] theorem record_ghost (s : State) (e : Event) : (s.record e).ghost = s.ghost.observe s.context s.csL s.dcL e := rfl
@[simp] theorem record_trace (s : State) (e : Event) : (s.record e).trace = s.trace ++ [e] := rfl
@[simp] theorem record_env (s : State) (e : Event) : (s.record e).env = s.env := latch_env s e
@[simp] theorem record_host (s : State) (e : Event) : (s.record e).host = s.host := latch_host s e
@[simp] theorem record_params (s : State) (e : Event) : (s.record e).params = s.params := latch_params s e

@[simp] theorem complete_life (s : State) : (complete s).life = s.life := rfl
@[simp] theorem complete_seq (s : State) : (complete s).seq = .idle := rfl
@[simp] theorem complete_w (s : State) : (complete s).w = s.w := rfl
@[simp] theorem complete_h (s : State) : (complete s).h = s.h := rfl
@[simp] theorem complete_lutF (s : State) : (complete s).lutF = s.lutF := rfl
@[simp] theorem complete_lutP (s : State) : (complete s).lutP = s.lutP := rfl
@[simp] theorem complete_csL (s : State) : (complete s).csL = s.csL := rfl
@[simp] theorem complete_dcL (s : State) : (complete s).dcL = s.dcL := rfl
@[simp] theorem complete_rstL (s : State) : (complete s).rstL = s.rstL := rfl
@[simp] theorem complete_status (s : State) : (complete s).status = .ok := rfl
@[simp] theorem complete_refused (s : State) : (complete s).refused = s.refused := rfl
@[simp] theorem complete_ghost (s : State) : (complete s).ghost = s.ghost := rfl
@[simp] theorem complete_trace (s : State) : (complete s).trace = s.trace := rfl
@[simp] theorem complete_env (s : State) : (complete s).env = s.env := rfl
@[simp] theorem complete_host (s : State) : (complete s).host = s.host := rfl
@[simp] theorem complete_params (s : State) : (complete s).params = s.params := rfl

@[simp] theorem completeInit_life (s : State) : (completeInit s).life = .ready := rfl
@[simp] theorem completeInit_seq (s : State) : (completeInit s).seq = .idle := rfl
@[simp] theorem completeInit_w (s : State) : (completeInit s).w = s.w := rfl
@[simp] theorem completeInit_h (s : State) : (completeInit s).h = s.h := rfl
@[simp] theorem completeInit_lutF (s : State) : (completeInit s).lutF = s.lutF := rfl
@[simp] theorem completeInit_lutP (s : State) : (completeInit s).lutP = s.lutP := rfl
@[simp] theorem completeInit_csL (s : State) : (completeInit s).csL = s.csL := rfl
@[simp] theorem completeInit_dcL (s : State) : (completeInit s).dcL = s.dcL := rfl
@[simp] theorem completeInit_rstL (s : State) : (completeInit s).rstL = s.rstL := rfl
@[simp] theorem completeInit_status (s : State) : (completeInit s).status = .ok := rfl
@[simp] theorem completeInit_refused (s : State) : (completeInit s).refused = s.refused := rfl
@[simp] theorem completeInit_ghost (s : State) : (completeInit s).ghost = s.ghost.afterInit := rfl
@[simp] theorem completeInit_trace (s : State) : (completeInit s).trace = s.trace := rfl
@[simp] theorem completeInit_env (s : State) : (completeInit s).env = s.env := rfl
@[simp] theorem completeInit_host (s : State) : (completeInit s).host = s.host := rfl
@[simp] theorem completeInit_params (s : State) : (completeInit s).params = s.params := rfl

@[simp] theorem abort_life (s : State) (st : Status) : (abort st s).life = s.life := rfl
@[simp] theorem abort_seq (s : State) (st : Status) : (abort st s).seq = .idle := rfl
@[simp] theorem abort_w (s : State) (st : Status) : (abort st s).w = s.w := rfl
@[simp] theorem abort_h (s : State) (st : Status) : (abort st s).h = s.h := rfl
@[simp] theorem abort_lutF (s : State) (st : Status) : (abort st s).lutF = s.lutF := rfl
@[simp] theorem abort_lutP (s : State) (st : Status) : (abort st s).lutP = s.lutP := rfl
@[simp] theorem abort_csL (s : State) (st : Status) : (abort st s).csL = s.csL := rfl
@[simp] theorem abort_dcL (s : State) (st : Status) : (abort st s).dcL = s.dcL := rfl
@[simp] theorem abort_rstL (s : State) (st : Status) : (abort st s).rstL = s.rstL := rfl
@[simp] theorem abort_status (s : State) (st : Status) : (abort st s).status = st := rfl
@[simp] theorem abort_refused (s : State) (st : Status) : (abort st s).refused = s.refused := rfl
@[simp] theorem abort_ghost (s : State) (st : Status) : (abort st s).ghost = s.ghost := rfl
@[simp] theorem abort_trace (s : State) (st : Status) : (abort st s).trace = s.trace := rfl
@[simp] theorem abort_env (s : State) (st : Status) : (abort st s).env = s.env := rfl
@[simp] theorem abort_host (s : State) (st : Status) : (abort st s).host = s.host := rfl
@[simp] theorem abort_params (s : State) (st : Status) : (abort st s).params = s.params := rfl

@[simp] theorem refuse_life (s : State) : (refuse s).life = s.life := rfl
@[simp] theorem refuse_seq (s : State) : (refuse s).seq = s.seq := rfl
@[simp] theorem refuse_w (s : State) : (refuse s).w = s.w := rfl
@[simp] theorem refuse_h (s : State) : (refuse s).h = s.h := rfl
@[simp] theorem refuse_lutF (s : State) : (refuse s).lutF = s.lutF := rfl
@[simp] theorem refuse_lutP (s : State) : (refuse s).lutP = s.lutP := rfl
@[simp] theorem refuse_csL (s : State) : (refuse s).csL = s.csL := rfl
@[simp] theorem refuse_dcL (s : State) : (refuse s).dcL = s.dcL := rfl
@[simp] theorem refuse_rstL (s : State) : (refuse s).rstL = s.rstL := rfl
@[simp] theorem refuse_status (s : State) : (refuse s).status = s.status := rfl
@[simp] theorem refuse_refused (s : State) : (refuse s).refused = true := rfl
@[simp] theorem refuse_ghost (s : State) : (refuse s).ghost = s.ghost := rfl
@[simp] theorem refuse_trace (s : State) : (refuse s).trace = s.trace := rfl
@[simp] theorem refuse_env (s : State) : (refuse s).env = s.env := rfl
@[simp] theorem refuse_host (s : State) : (refuse s).host = s.host := rfl
@[simp] theorem refuse_params (s : State) : (refuse s).params = s.params := rfl

@[simp] theorem start_life (s : State) (i : Instr) : (start i s).life = s.life := rfl
@[simp] theorem start_seq (s : State) (i : Instr) : (start i s).seq = .exec { req := requestOf s.params.commands i, upc := 0, failing := none } := rfl
@[simp] theorem start_w (s : State) (i : Instr) : (start i s).w = s.w := rfl
@[simp] theorem start_h (s : State) (i : Instr) : (start i s).h = s.h := rfl
@[simp] theorem start_lutF (s : State) (i : Instr) : (start i s).lutF = s.lutF := rfl
@[simp] theorem start_lutP (s : State) (i : Instr) : (start i s).lutP = s.lutP := rfl
@[simp] theorem start_csL (s : State) (i : Instr) : (start i s).csL = s.csL := rfl
@[simp] theorem start_dcL (s : State) (i : Instr) : (start i s).dcL = s.dcL := rfl
@[simp] theorem start_rstL (s : State) (i : Instr) : (start i s).rstL = s.rstL := rfl
@[simp] theorem start_status (s : State) (i : Instr) : (start i s).status = s.status := rfl
@[simp] theorem start_refused (s : State) (i : Instr) : (start i s).refused = s.refused := rfl
@[simp] theorem start_ghost (s : State) (i : Instr) : (start i s).ghost = s.ghost := rfl
@[simp] theorem start_trace (s : State) (i : Instr) : (start i s).trace = s.trace := rfl
@[simp] theorem start_env (s : State) (i : Instr) : (start i s).env = s.env := rfl
@[simp] theorem start_host (s : State) (i : Instr) : (start i s).host = s.host := rfl
@[simp] theorem start_params (s : State) (i : Instr) : (start i s).params = s.params := rfl

@[simp] theorem acceptProfile_life (s : State) (p : Profile) : (acceptProfile p s).life = .uninit := rfl
@[simp] theorem acceptProfile_seq (s : State) (p : Profile) : (acceptProfile p s).seq = s.seq := rfl
@[simp] theorem acceptProfile_w (s : State) (p : Profile) : (acceptProfile p s).w = p.w := rfl
@[simp] theorem acceptProfile_h (s : State) (p : Profile) : (acceptProfile p s).h = p.h := rfl
@[simp] theorem acceptProfile_lutF (s : State) (p : Profile) : (acceptProfile p s).lutF = p.lutF := rfl
@[simp] theorem acceptProfile_lutP (s : State) (p : Profile) : (acceptProfile p s).lutP = p.lutP := rfl
@[simp] theorem acceptProfile_csL (s : State) (p : Profile) : (acceptProfile p s).csL = s.csL := rfl
@[simp] theorem acceptProfile_dcL (s : State) (p : Profile) : (acceptProfile p s).dcL = s.dcL := rfl
@[simp] theorem acceptProfile_rstL (s : State) (p : Profile) : (acceptProfile p s).rstL = s.rstL := rfl
@[simp] theorem acceptProfile_status (s : State) (p : Profile) : (acceptProfile p s).status = s.status := rfl
@[simp] theorem acceptProfile_refused (s : State) (p : Profile) : (acceptProfile p s).refused = s.refused := rfl
@[simp] theorem acceptProfile_ghost (s : State) (p : Profile) : (acceptProfile p s).ghost = s.ghost := rfl
@[simp] theorem acceptProfile_trace (s : State) (p : Profile) : (acceptProfile p s).trace = s.trace := rfl
@[simp] theorem acceptProfile_env (s : State) (p : Profile) : (acceptProfile p s).env = s.env := rfl
@[simp] theorem acceptProfile_host (s : State) (p : Profile) : (acceptProfile p s).host = s.host := rfl
@[simp] theorem acceptProfile_params (s : State) (p : Profile) : (acceptProfile p s).params = s.params := rfl

end Sys2Proof.Machine
end

