-- ==== Sys2Proof/Laws/Ports.lean ====
section
/-! SUPPORT. What the shared operations of `Machine/Ops` can do, each said once: one port action (`perform_*`), and a
sequence of them (`runActions_of_carries`, `_of_breaks`, `_of_stalls`, `_of_restoring`, and `runActions_cases`, which
says that one of the four always applies). -/

namespace Sys2Proof.Machine

/-! ### Recording events -/

@[simp] theorem context_commands (s : State) : s.context.commands = s.params.commands := by
  unfold State.context; cases s.seq <;> rfl

@[simp] theorem context_withEnv (s : State) (env : Env) : State.context { s with env := env } = s.context := rfl

@[simp] theorem context_advance (s : State) : State.context { s with seq := s.seq.advance } = s.context := by
  unfold State.context; cases s.seq <;> rfl

theorem latch_withEnv (s : State) (env : Env) (e : Event) :
    State.latch { s with env := env } e = { s.latch e with env := env } := by
  unfold State.latch; (repeat' split) <;> rfl

theorem latch_withSeq (s : State) (q : Seq) (e : Event) :
    State.latch { s with seq := q } e = { s.latch e with seq := q } := by
  unfold State.latch; (repeat' split) <;> rfl

theorem record_withEnv (s : State) (env : Env) (e : Event) :
    State.record { s with env := env } e = { s.record e with env := env } := by
  simp only [State.record, latch_withEnv, context_withEnv]

theorem record_advance (s : State) (e : Event) :
    State.record { s with seq := s.seq.advance } e = { s.record e with seq := s.seq.advance } := by
  simp only [State.record, latch_withSeq, context_advance]

@[simp] theorem recordAll_nil (s : State) : s.recordAll [] = s := rfl

@[simp] theorem recordAll_cons (s : State) (e : Event) (es : List Event) :
    s.recordAll (e :: es) = (s.record e).recordAll es := rfl

theorem recordAll_append (s : State) (es fs : List Event) :
    s.recordAll (es ++ fs) = (s.recordAll es).recordAll fs := by
  simp [State.recordAll]

theorem recordAll_withEnv (es : List Event) (s : State) (env : Env) :
    State.recordAll { s with env := env } es = { s.recordAll es with env := env } := by
  induction es generalizing s with
  | nil => rfl
  | cons e es ih => simp only [recordAll_cons, record_withEnv, ih]

theorem recordAll_advance (es : List Event) (s : State) :
    State.recordAll { s with seq := s.seq.advance } es = { s.recordAll es with seq := s.seq.advance } := by
  induction es generalizing s with
  | nil => rfl
  | cons e es ih =>
    have h := ih (s.record e)
    rw [record_seq] at h
    simp only [recordAll_cons, record_advance, h]

@[simp] theorem recordAll_seq (es : List Event) (s : State) : (s.recordAll es).seq = s.seq := by
  induction es generalizing s with
  | nil => rfl
  | cons e es ih => simp [ih]

@[simp] theorem recordAll_trace (es : List Event) (s : State) : (s.recordAll es).trace = s.trace ++ es := by
  induction es generalizing s with
  | nil => simp
  | cons e es ih => simp [ih]

@[simp] theorem recordAll_life (es : List Event) (s : State) : (s.recordAll es).life = s.life := by
  induction es generalizing s with
  | nil => rfl
  | cons e es ih => simp [ih]

@[simp] theorem recordAll_w (es : List Event) (s : State) : (s.recordAll es).w = s.w := by
  induction es generalizing s with
  | nil => rfl
  | cons e es ih => simp [ih]

@[simp] theorem recordAll_h (es : List Event) (s : State) : (s.recordAll es).h = s.h := by
  induction es generalizing s with
  | nil => rfl
  | cons e es ih => simp [ih]

@[simp] theorem recordAll_lutF (es : List Event) (s : State) : (s.recordAll es).lutF = s.lutF := by
  induction es generalizing s with
  | nil => rfl
  | cons e es ih => simp [ih]

@[simp] theorem recordAll_lutP (es : List Event) (s : State) : (s.recordAll es).lutP = s.lutP := by
  induction es generalizing s with
  | nil => rfl
  | cons e es ih => simp [ih]

@[simp] theorem recordAll_status (es : List Event) (s : State) : (s.recordAll es).status = s.status := by
  induction es generalizing s with
  | nil => rfl
  | cons e es ih => simp [ih]

@[simp] theorem recordAll_refused (es : List Event) (s : State) : (s.recordAll es).refused = s.refused := by
  induction es generalizing s with
  | nil => rfl
  | cons e es ih => simp [ih]

@[simp] theorem recordAll_env (es : List Event) (s : State) : (s.recordAll es).env = s.env := by
  induction es generalizing s with
  | nil => rfl
  | cons e es ih => simp [ih]

@[simp] theorem recordAll_host (es : List Event) (s : State) : (s.recordAll es).host = s.host := by
  induction es generalizing s with
  | nil => rfl
  | cons e es ih => simp [ih]

@[simp] theorem recordAll_params (es : List Event) (s : State) : (s.recordAll es).params = s.params := by
  induction es generalizing s with
  | nil => rfl
  | cons e es ih => simp [ih]

@[simp] theorem recordAll_context (es : List Event) (s : State) :
    (s.recordAll es).context.lutF = s.context.lutF ∧ (s.recordAll es).context.lutP = s.context.lutP := by
  unfold State.context
  simp only [recordAll_seq]
  cases s.seq <;> simp

/-! ### µpc -/

@[simp] theorem advanceBy_zero (q : Seq) : q.advanceBy 0 = q := by cases q <;> rfl

theorem advance_advanceBy (q : Seq) (n : Nat) : q.advance.advanceBy n = q.advanceBy (n + 1) := by
  cases q <;> simp [Seq.advance, Seq.advanceBy, Nat.add_comm, Nat.add_left_comm]

@[simp] theorem advanceBy_exec (r : Running) (n : Nat) :
    (Seq.exec r).advanceBy n = .exec { r with upc := r.upc + n } := rfl

@[simp] theorem advanceBy_idle (n : Nat) : Seq.idle.advanceBy n = .idle := rfl

/-! ### One port action -/

@[simp] theorem giving_nil (rest : Env) : Env.giving [] rest = rest := rfl

@[simp] theorem giving_cons (e : Event) (es : List Event) (rest : Env) :
    Env.giving (e :: es) rest = Env.answer e (Env.giving es rest) := rfl

/-- An answer that lets the sequence go on performs the action. -/
theorem perform_of_performedBy {a : Action} {e : Event} {s : State} {env : Env} (h : a.performedBy e = true)
    (hs : s.env = Env.answer e env) : perform a s = .done (State.record { s with env := env } e) := by
  cases a with
  | pin p v g =>
    simp only [Action.performedBy, decide_eq_true_eq] at h
    subst h
    simp [perform, pinSet, hs, Env.answer]
  | send b =>
    simp only [Action.performedBy, decide_eq_true_eq] at h
    subst h
    simp [perform, sendLoop, hs, Env.answer]
  | read =>
    obtain _ | _ | a' | _ | _ := e <;> simp only [Action.performedBy, Event.isByteRead, Bool.false_eq_true] at h
    cases a' <;> simp only [Bool.false_eq_true] at h
    simp [perform, readLoop, hs, Env.answer]
  | poll =>
    simp only [Action.performedBy, decide_eq_true_eq] at h
    subst h
    simp [perform, pollLoop, hs, Env.answer]
  | delay ms =>
    simp only [Action.performedBy, decide_eq_true_eq] at h
    subst h
    simp only [Env.answer] at hs
    subst hs
    rfl

/-- An answer that asks for the same call again leaves the action to perform, one event later. -/
theorem perform_of_retriedBy {a : Action} {e : Event} {s : State} {env : Env} (h : a.retriedBy e = true)
    (hs : s.env = Env.answer e env) : perform a s = perform a (State.record { s with env := env } e) := by
  cases a <;> simp only [Action.retriedBy, decide_eq_true_eq, Bool.false_eq_true] at h <;> subst h
  · simp [perform, sendLoop, hs, Env.answer]
  · simp [perform, readLoop, hs, Env.answer]
  · simp [perform, pollLoop, hs, Env.answer]

/-- An error answer fails the action with that error. -/
theorem perform_of_failedBy {a : Action} {e : Event} {s : State} {env : Env} {x : ErrVal}
    (h : a.failedBy x e = true) (hs : s.env = Env.answer e env) :
    perform a s = .failed x (State.record { s with env := env } e) := by
  cases a <;> simp only [Action.failedBy, decide_eq_true_eq, Bool.false_eq_true] at h <;> subst h
  · simp [perform, pinSet, hs, Env.answer]
  · simp [perform, sendLoop, hs, Env.answer]
  · simp [perform, readLoop, hs, Env.answer]
  · simp [perform, pollLoop, hs, Env.answer]

/-- A call the environment has not answered leaves the state as it is, waiting. -/
theorem perform_of_unanswered {a : Action} {s : State} (h : a.unanswered s.env = true) :
    perform a s = .waiting s := by
  cases a <;> simp only [Action.unanswered, List.isEmpty_iff, Bool.false_eq_true] at h
  case pin => simp [perform, pinSet, h]
  case send => simp only [perform, h, sendLoop]; rw [← h]
  case read => simp only [perform, h, readLoop]; rw [← h]
  case poll => simp only [perform, h, pollLoop]; rw [← h]

/-- Every call is performed, retried, failed or unanswered. -/
theorem perform_answers (a : Action) (env : Env) :
    (∃ e env', env = Env.answer e env' ∧ a.performedBy e = true) ∨
    (∃ e env', env = Env.answer e env' ∧ a.retriedBy e = true) ∨
    (∃ e env' x, env = Env.answer e env' ∧ a.failedBy x e = true) ∨ a.unanswered env = true := by
  obtain ⟨ps, ss, rs, qs⟩ := env
  cases a with
  | pin p v g =>
    rcases ps with _ | ⟨_ | x, ps⟩
    · exact .inr (.inr (.inr rfl))
    · exact .inl ⟨.pin p v .ok, ⟨ps, ss, rs, qs⟩, rfl, by simp [Action.performedBy]⟩
    · exact .inr (.inr (.inl ⟨.pin p v (.err x), ⟨ps, ss, rs, qs⟩, x, rfl, by simp [Action.failedBy]⟩))
  | send b =>
    rcases ss with _ | ⟨_ | _ | x, ss⟩
    · exact .inr (.inr (.inr rfl))
    · exact .inl ⟨.send b .ok, ⟨ps, ss, rs, qs⟩, rfl, by simp [Action.performedBy]⟩
    · exact .inr (.inl ⟨.send b .wouldblock, ⟨ps, ss, rs, qs⟩, rfl, by simp [Action.retriedBy]⟩)
    · exact .inr (.inr (.inl ⟨.send b (.err x), ⟨ps, ss, rs, qs⟩, x, rfl, by simp [Action.failedBy]⟩))
  | read =>
    rcases rs with _ | ⟨b | _ | x, rs⟩
    · exact .inr (.inr (.inr rfl))
    · exact .inl ⟨.read (.ok b), ⟨ps, ss, rs, qs⟩, rfl, rfl⟩
    · exact .inr (.inl ⟨.read .wouldblock, ⟨ps, ss, rs, qs⟩, rfl, rfl⟩)
    · exact .inr (.inr (.inl ⟨.read (.err x), ⟨ps, ss, rs, qs⟩, x, rfl, by simp [Action.failedBy]⟩))
  | poll =>
    rcases qs with _ | ⟨⟨l⟩ | x, qs⟩
    · exact .inr (.inr (.inr rfl))
    · cases l
      · exact .inl ⟨.poll (.ok false), ⟨ps, ss, rs, qs⟩, rfl, rfl⟩
      · exact .inr (.inl ⟨.poll (.ok true), ⟨ps, ss, rs, qs⟩, rfl, rfl⟩)
    · exact .inr (.inr (.inl ⟨.poll (.err x), ⟨ps, ss, rs, qs⟩, x, rfl, by simp [Action.failedBy]⟩))
  | delay ms => exact .inl ⟨.delay ms, ⟨ps, ss, rs, qs⟩, rfl, by simp [Action.performedBy]⟩

/-! ### A sequence of port actions -/

@[simp] theorem runActions_nil (s : State) : runActions [] s = .done s := rfl

theorem runActions_cons (a : Action) (as : List Action) (s : State) :
    runActions (a :: as) s = match perform a s with
      | .done t => runActions as { t with seq := t.seq.advance }
      | .waiting t => .waiting t
      | .failed e t => afterFailure a e t := rfl

theorem runActions_performed {a : Action} {as : List Action} {e : Event} {s : State} {env : Env}
    (h : a.performedBy e = true) (hs : s.env = Env.answer e env) :
    runActions (a :: as) s =
      runActions as { State.record { s with env := env } e with seq := s.seq.advance } := by
  rw [runActions_cons, perform_of_performedBy h hs]
  simp

theorem runActions_retried {a : Action} {as : List Action} {e : Event} {s : State} {env : Env}
    (h : a.retriedBy e = true) (hs : s.env = Env.answer e env) :
    runActions (a :: as) s = runActions (a :: as) (State.record { s with env := env } e) := by
  rw [runActions_cons, perform_of_retriedBy h hs, ← runActions_cons]

theorem after_performed (s : State) (e : Event) (es : List Event) (env rest : Env) (n : Nat) :
    State.after { State.record { s with env := env } e with seq := s.seq.advance } es rest n =
      s.after (e :: es) rest (n + 1) := by
  have h := recordAll_advance es (State.record { s with env := rest } e)
  simp only [record_seq] at h
  simp only [State.after, recordAll_cons, advance_advanceBy, record_withEnv] at h ⊢
  rw [h]

theorem after_retried (s : State) (e : Event) (es : List Event) (env rest : Env) (n : Nat) :
    State.after (State.record { s with env := env } e) es rest n = s.after (e :: es) rest n := by
  simp only [State.after, recordAll_cons, record_withEnv, record_seq]

theorem withSeq_self {t : State} {q : Seq} (h : t.seq = q) : { t with seq := q } = t := by
  subst h; rfl

theorem after_zero (s : State) (es : List Event) (rest : Env) :
    s.after es rest 0 = State.recordAll { s with env := rest } es := by
  rw [State.after, advanceBy_zero]
  exact withSeq_self (recordAll_seq es _)

/-- A sequence whose error-free trace the environment gives is performed whole (R33, R82). -/
theorem runActions_of_carries {acts : List Action} {ev : List Event} {s : State} {rest : Env}
    (h : carries acts ev = true) (hs : s.env = Env.giving ev rest) :
    runActions acts s = .done (s.after ev rest acts.length) := by
  induction ev generalizing acts s with
  | nil =>
    cases acts with
    | nil => simp only [giving_nil] at hs; subst hs; simp [State.after]
    | cons a as => simp [carries] at h
  | cons e es ih =>
    cases acts with
    | nil => simp [carries] at h
    | cons a as =>
      simp only [carries, Bool.or_eq_true, Bool.and_eq_true] at h
      rw [giving_cons] at hs
      obtain ⟨hp, hc⟩ | ⟨hr, hc⟩ := h
      · rw [runActions_performed hp hs, ih hc (by simp), after_performed, List.length_cons]
      · rw [runActions_retried hr hs, ih hc (by simp), after_retried]

/-- A sequence whose trace fails ends in that error, with the events of the trace and no others (R308, R309). -/
theorem runActions_of_breaks {x : ErrVal} {acts : List Action} {ev : List Event} {s : State} {rest : Env}
    (h : breaks x acts ev = true) (hs : s.env = Env.giving ev rest) :
    ∃ n, runActions acts s = .failed x (s.after ev rest n) := by
  induction ev generalizing acts s with
  | nil => cases acts <;> simp [breaks] at h
  | cons e es ih =>
    cases acts with
    | nil => simp [breaks] at h
    | cons a as =>
      simp only [breaks, Bool.or_eq_true, Bool.and_eq_true] at h
      rw [giving_cons] at hs
      obtain (⟨hp, hc⟩ | ⟨hr, hc⟩) | ⟨hf, hrest⟩ := h
      · obtain ⟨n, hn⟩ := ih (s := { State.record { s with env := Env.giving es rest } e with
          seq := s.seq.advance }) hc (by simp)
        exact ⟨n + 1, by rw [runActions_performed hp hs, hn, after_performed]⟩
      · obtain ⟨n, hn⟩ := ih (s := State.record { s with env := Env.giving es rest } e) hc (by simp)
        exact ⟨n, by rw [runActions_retried hr hs, hn, after_retried]⟩
      · refine ⟨0, ?_⟩
        rw [runActions_cons, perform_of_failedBy hf hs]
        unfold restoredBy at hrest
        split at hrest
        · rename_i hg
          simp only [afterFailure, hg, if_true, restoreCS, giving_cons, giving_nil, Env.answer, record_env]
          rw [after_zero]
          simp only [recordAll_cons, recordAll_nil, record_withEnv]
        · rename_i hg
          simp only [afterFailure, hg, Bool.false_eq_true, if_false, giving_nil]
          rw [after_zero]
          simp only [recordAll_cons, recordAll_nil, record_withEnv]
        · simp at hrest

/-- A sequence whose next call is unanswered stays there, in the same request, µpc at that call (R313). -/
theorem runActions_of_stalls {acts : List Action} {ev : List Event} {n : Nat} {s : State} {rest : Env}
    (h : stalls rest acts ev n = true) (hs : s.env = Env.giving ev rest) :
    runActions acts s = .waiting (s.after ev rest n) := by
  induction ev generalizing acts s n with
  | nil =>
    cases acts with
    | nil => simp [stalls] at h
    | cons a as =>
      cases n with
      | zero =>
        simp only [giving_nil] at hs
        subst hs
        simp only [stalls] at h
        rw [runActions_cons, perform_of_unanswered h]
        simp [State.after]
      | succ n => simp [stalls] at h
  | cons e es ih =>
    cases acts with
    | nil => simp [stalls] at h
    | cons a as =>
      rw [giving_cons] at hs
      simp only [stalls, Bool.or_eq_true, Bool.and_eq_true] at h
      obtain ⟨hr, hc⟩ | h := h
      · rw [runActions_retried hr hs, ih hc (by simp), after_retried]
      · cases n with
        | zero => simp at h
        | succ m =>
          simp only [Bool.and_eq_true] at h
          rw [runActions_performed h.1 hs, ih h.2 (by simp), after_performed]

/-- A sequence that fails inside a transfer with RestoreCS unanswered waits for it, the error kept (R273). -/
theorem runActions_of_restoring {x : ErrVal} {acts : List Action} {ev : List Event} {n : Nat} {s : State}
    {rest : Env} (h : restoring x rest acts ev n = true) (hs : s.env = Env.giving ev rest) :
    runActions acts s =
      .waiting { s.after ev rest n with seq := (s.seq.advanceBy n).holdError x } := by
  induction ev generalizing acts s n with
  | nil => cases acts <;> simp [restoring] at h
  | cons e es ih =>
    cases acts with
    | nil => simp [restoring] at h
    | cons a as =>
      rw [giving_cons] at hs
      simp only [restoring, Bool.or_eq_true, Bool.and_eq_true] at h
      obtain ⟨hr, hc⟩ | h := h
      · rw [runActions_retried hr hs, ih hc (by simp), after_retried]
        simp
      · cases n with
        | zero =>
          simp only [Bool.and_eq_true, List.isEmpty_iff] at h
          obtain ⟨⟨⟨hf, hg⟩, rfl⟩, hp⟩ := h
          rw [runActions_cons, perform_of_failedBy hf hs]
          simp [afterFailure, hg, restoreCS, hp, State.after, record_withEnv]
        | succ m =>
          simp only [Bool.and_eq_true] at h
          rw [runActions_performed h.1 hs, ih h.2 (by simp), after_performed]
          simp [advance_advanceBy]

end Sys2Proof.Machine
end

