-- ==== Sys2Proof/Laws/Run.lean ====
section
/-! SUPPORT. Which trace a sequence of actions has under any environment (`trace_exists`), what the traces that carry
it leave behind (`carries_sameBut_ideal`: what the shortest of them leaves), and what a command transfer leaves behind
(`ideal_transfer`). -/

namespace Sys2Proof.Machine

/-! ### Every environment gives one of the four kinds of trace -/

/-- How many answers an environment still gives. -/
def Env.size (env : Env) : Nat := env.pins.length + env.sends.length + env.reads.length + env.polls.length

theorem size_lt_of_retriedBy {a : Action} {e : Event} {env : Env} (h : a.retriedBy e = true) :
    env.size < (Env.answer e env).size := by
  cases a <;> simp only [Action.retriedBy, decide_eq_true_eq, Bool.false_eq_true] at h <;> subst h <;>
    simp [Env.answer, Env.size]

/-- A trace of the actions the environment gives: to the end, to an error, or to a call it has not answered. -/
def TraceOf (acts : List Action) (env : Env) : Prop :=
  (∃ ev rest, carries acts ev = true ∧ env = Env.giving ev rest) ∨
  (∃ x ev rest, breaks x acts ev = true ∧ env = Env.giving ev rest) ∨
  (∃ ev rest n, stalls rest acts ev n = true ∧ env = Env.giving ev rest) ∨
  (∃ x ev rest n, restoring x rest acts ev n = true ∧ env = Env.giving ev rest)

theorem traceOf_performed {a : Action} {as : List Action} {e : Event} {env : Env} (h : a.performedBy e = true)
    (ih : TraceOf as env) : TraceOf (a :: as) (Env.answer e env) := by
  obtain ⟨ev, rest, hc, rfl⟩ | ⟨x, ev, rest, hc, rfl⟩ | ⟨ev, rest, n, hc, rfl⟩ | ⟨x, ev, rest, n, hc, rfl⟩ := ih
  · exact .inl ⟨e :: ev, rest, by simp [carries, h, hc], rfl⟩
  · exact .inr (.inl ⟨x, e :: ev, rest, by simp [breaks, h, hc], rfl⟩)
  · exact .inr (.inr (.inl ⟨e :: ev, rest, n + 1, by simp [stalls, h, hc], rfl⟩))
  · exact .inr (.inr (.inr ⟨x, e :: ev, rest, n + 1, by simp [restoring, h, hc], rfl⟩))

theorem traceOf_retried {a : Action} {as : List Action} {e : Event} {env : Env} (h : a.retriedBy e = true)
    (ih : TraceOf (a :: as) env) : TraceOf (a :: as) (Env.answer e env) := by
  obtain ⟨ev, rest, hc, rfl⟩ | ⟨x, ev, rest, hc, rfl⟩ | ⟨ev, rest, n, hc, rfl⟩ | ⟨x, ev, rest, n, hc, rfl⟩ := ih
  · exact .inl ⟨e :: ev, rest, by simp [carries, h, hc], rfl⟩
  · exact .inr (.inl ⟨x, e :: ev, rest, by simp [breaks, h, hc], rfl⟩)
  · exact .inr (.inr (.inl ⟨e :: ev, rest, n, by simp [stalls, h, hc], rfl⟩))
  · exact .inr (.inr (.inr ⟨x, e :: ev, rest, n, by simp [restoring, h, hc], rfl⟩))

theorem traceOf_failed {a : Action} {as : List Action} {e : Event} {x : ErrVal} {env : Env}
    (h : a.failedBy x e = true) : TraceOf (a :: as) (Env.answer e env) := by
  cases hg : a.guarded with
  | false => exact .inr (.inl ⟨x, [e], env, by simp [breaks, h, restoredBy, hg], rfl⟩)
  | true =>
    obtain ⟨ps, ss, rs, qs⟩ := env
    rcases ps with _ | ⟨p, ps⟩
    · exact .inr (.inr (.inr ⟨x, [e], ⟨[], ss, rs, qs⟩, 0, by simp [restoring, h, hg], rfl⟩))
    · exact .inr (.inl ⟨x, [e, .pin .cs true p], ⟨ps, ss, rs, qs⟩, by simp [breaks, h, restoredBy, hg], rfl⟩)

theorem trace_exists (acts : List Action) (env : Env) : TraceOf acts env := by
  induction acts generalizing env with
  | nil => exact .inl ⟨[], env, rfl, rfl⟩
  | cons a as ih =>
    induction hn : env.size using Nat.strong_induction_on generalizing env with
    | _ n ihn =>
      obtain ⟨e, env', rfl, h⟩ | ⟨e, env', rfl, h⟩ | ⟨e, env', x, rfl, h⟩ | h := perform_answers a env
      · exact traceOf_performed h (ih env')
      · exact traceOf_retried h (ihn env'.size (hn ▸ size_lt_of_retriedBy h) env' rfl)
      · exact traceOf_failed h
      · exact .inr (.inr (.inl ⟨[], env, 0, by simpa [stalls] using h, rfl⟩))

/-- What a sequence of port actions can do, under any environment: it is performed whole, it fails, or it waits, and
the events say exactly what happened. -/
theorem runActions_cases (acts : List Action) (s : State) :
    (∃ ev rest, carries acts ev = true ∧ s.env = Env.giving ev rest ∧
      runActions acts s = .done (s.after ev rest acts.length)) ∨
    (∃ x ev rest n, breaks x acts ev = true ∧ s.env = Env.giving ev rest ∧
      runActions acts s = .failed x (s.after ev rest n)) ∨
    (∃ ev rest n, stalls rest acts ev n = true ∧ s.env = Env.giving ev rest ∧
      runActions acts s = .waiting (s.after ev rest n)) ∨
    (∃ x ev rest n, restoring x rest acts ev n = true ∧ s.env = Env.giving ev rest ∧
      runActions acts s =
        .waiting { s.after ev rest n with seq := (s.seq.advanceBy n).holdError x }) := by
  obtain ⟨ev, rest, hc, he⟩ | ⟨x, ev, rest, hc, he⟩ | ⟨ev, rest, n, hc, he⟩ | ⟨x, ev, rest, n, hc, he⟩ :=
    trace_exists acts s.env
  · exact .inl ⟨ev, rest, hc, he, runActions_of_carries hc he⟩
  · obtain ⟨n, hn⟩ := runActions_of_breaks hc he
    exact .inr (.inl ⟨x, ev, rest, n, hc, he, hn⟩)
  · exact .inr (.inr (.inl ⟨ev, rest, n, hc, he, runActions_of_stalls hc he⟩))
  · exact .inr (.inr (.inr ⟨x, ev, rest, n, hc, he, runActions_of_restoring hc he⟩))

/-! ### Sequences one after the other -/

theorem runActions_append (as bs : List Action) (s : State) :
    runActions (as ++ bs) s = match runActions as s with
      | .done t => runActions bs t
      | .waiting t => .waiting t
      | .failed e t => .failed e t := by
  induction as generalizing s with
  | nil => rfl
  | cons a as ih =>
    simp only [List.cons_append, runActions_cons]
    cases perform a s with
    | done t => exact ih _
    | waiting t => rfl
    | failed e t =>
      simp only [afterFailure]
      split
      · unfold restoreCS; split <;> rfl
      · rfl

/-! ### What a carried sequence leaves behind -/

/-- The event of an action performed at once; a read answers 0, which nothing reads (R80). -/
def Action.ideal (a : Action) : Event :=
  match a with
  | .pin p v _ => .pin p v .ok
  | .send b => .send b .ok
  | .read => .read (.ok 0#8)
  | .poll => .poll (.ok false)
  | .delay ms => .delay ms

/-- The state without its trace and the answers to come. -/
def State.sansTrace (s : State) : State := { s with trace := [], env := Env.reset }

theorem sansTrace_record_congr {s t : State} (h : s.sansTrace = t.sansTrace) (e : Event) :
    (s.record e).sansTrace = (t.record e).sansTrace := by
  obtain ⟨⟩ := s
  obtain ⟨⟩ := t
  simp only [State.sansTrace, State.mk.injEq] at h
  obtain ⟨rfl, rfl, rfl, rfl, rfl, rfl, rfl, rfl, rfl, rfl, rfl, rfl, -, -, rfl, rfl⟩ := h
  simp [State.sansTrace, State.record, State.latch, State.context]
  cases e <;> simp
  rename_i p _ _
  cases p <;> simp

theorem sansTrace_recordAll_congr {s t : State} (h : s.sansTrace = t.sansTrace) (es : List Event) :
    (s.recordAll es).sansTrace = (t.recordAll es).sansTrace := by
  induction es generalizing s t with
  | nil => exact h
  | cons e es ih => exact ih (sansTrace_record_congr h e)

theorem sansTrace_retried {a : Action} {e : Event} (h : a.retriedBy e = true) (s : State) :
    (s.record e).sansTrace = s.sansTrace := by
  cases a <;> simp only [Action.retriedBy, decide_eq_true_eq, Bool.false_eq_true] at h <;> subst h <;> rfl

theorem sansTrace_performed {a : Action} {e : Event} (h : a.performedBy e = true) (s : State) :
    (s.record e).sansTrace = (s.record a.ideal).sansTrace := by
  cases a with
  | read =>
    obtain _ | _ | a' | _ | _ := e <;> simp only [Action.performedBy, Event.isByteRead, Bool.false_eq_true] at h
    cases a' <;> simp only [Bool.false_eq_true] at h
    rfl
  | _ => simp only [Action.performedBy, decide_eq_true_eq] at h; subst h; rfl

/-- Whatever the retries and the bytes read, a carried sequence leaves behind what its shortest trace leaves. -/
theorem carries_sameBut_ideal {acts : List Action} {ev : List Event} (h : carries acts ev = true) (s : State) :
    (s.recordAll ev).sansTrace = (s.recordAll (acts.map Action.ideal)).sansTrace := by
  induction ev generalizing acts s with
  | nil =>
    cases acts with
    | nil => rfl
    | cons a as => simp [carries] at h
  | cons e es ih =>
    cases acts with
    | nil => simp [carries] at h
    | cons a as =>
      simp only [carries, Bool.or_eq_true, Bool.and_eq_true] at h
      obtain ⟨hp, hc⟩ | ⟨hr, hc⟩ := h
      · rw [recordAll_cons, ih hc, List.map_cons, recordAll_cons]
        exact sansTrace_recordAll_congr (sansTrace_performed hp s) _
      · rw [recordAll_cons, ih hc]
        exact sansTrace_recordAll_congr (sansTrace_retried hr s) _

/-! ### What a command transfer leaves behind -/

/-- The state, but for its trace, after a complete command transfer: CS high, DC at its last level (R273, R274). -/
def State.afterTransfer (s : State) (op : Byte) (p : Payload) : State :=
  { s with
    csL := .high
    dcL := if p.isSome then .high else .low
    ghost := s.ghost.afterTransfer s.context op (p.getD []) }

/-- The state inside a transfer after its opcode and the payload bytes so far. -/
def State.insideTransfer (s : State) (dc : Level) (op : Byte) (sofar : List Byte) : State :=
  { s with
    csL := .low
    dcL := dc
    ghost := { s.ghost.commandByte s.context op with
      phase := s.ghost.phase.afterOpcode s.context op
      interval := some { sent := none, opcode := some op, payload := sofar } } }

theorem ideal_opcode (s : State) (op : Byte) :
    (s.recordAll [.pin .cs false .ok, .pin .dc false .ok, .send op .ok, .read (.ok 0#8)]).sansTrace =
      (s.insideTransfer .low op []).sansTrace := by
  obtain ⟨life, q, w, h, lutF, lutP, csL, dcL, rstL, status, refused, ghost, trace, env, host, params⟩ := s
  cases q with
  | idle =>
    simp [State.recordAll, State.record, State.latch, Ghost.observe, Ghost.observePin, Ghost.observeSend,
      Ghost.observeRead, Ghost.observeByteRead, Ghost.noteSent, Ghost.exchanged, latchLevel, State.insideTransfer,
      State.sansTrace, State.context, Ghost.commandByte, Phase.afterOpcode] <;>
      (repeat' apply And.intro) <;> rfl
  | exec r =>
    simp [State.recordAll, State.record, State.latch, Ghost.observe, Ghost.observePin, Ghost.observeSend,
      Ghost.observeRead, Ghost.observeByteRead, Ghost.noteSent, Ghost.exchanged, latchLevel, State.insideTransfer,
      State.sansTrace, State.context, Ghost.commandByte, Phase.afterOpcode] <;> rfl

theorem ideal_dcHigh (s : State) (op : Byte) :
    ((s.insideTransfer .low op []).record (.pin .dc true .ok)).sansTrace =
      (s.insideTransfer .high op []).sansTrace := by
  obtain ⟨⟩ := s
  simp [State.record, State.latch, Ghost.observe, Ghost.observePin, latchLevel, State.insideTransfer, State.sansTrace]

theorem ideal_payload (s : State) (op : Byte) (bs sofar : List Byte) :
    ((s.insideTransfer .high op sofar).recordAll ((exchangeAll bs).map Action.ideal)).sansTrace =
      (s.insideTransfer .high op (sofar ++ bs)).sansTrace := by
  induction bs generalizing sofar with
  | nil => simp [exchangeAll]
  | cons b bs ih =>
    have h : ((s.insideTransfer .high op sofar).recordAll [.send b .ok, .read (.ok 0#8)]).sansTrace =
        (s.insideTransfer .high op (sofar ++ [b])).sansTrace := by
      obtain ⟨⟩ := s
      simp [State.recordAll, State.record, State.latch, Ghost.observe, Ghost.observeSend, Ghost.observeRead,
        Ghost.observeByteRead, Ghost.noteSent, Ghost.exchanged, State.insideTransfer, State.sansTrace]
    have h' := sansTrace_recordAll_congr h ((exchangeAll bs).map Action.ideal)
    rw [ih] at h'
    simpa [exchangeAll, exchange, Action.ideal] using h'

theorem ideal_csHigh (s : State) (dc : Level) (op : Byte) (bs : List Byte) :
    ((s.insideTransfer dc op bs).record (.pin .cs true .ok)).sansTrace =
      State.sansTrace { s with
        csL := .high, dcL := dc, ghost := s.ghost.afterTransfer s.context op bs } := by
  obtain ⟨⟩ := s
  simp [State.record, State.latch, Ghost.observe, Ghost.observePin, latchLevel, State.insideTransfer, State.sansTrace,
    Ghost.intervalEnded, Ghost.afterTransfer]

theorem ideal_transfer (s : State) (op : Byte) (p : Payload) :
    (s.recordAll ((transferActions op p).map Action.ideal)).sansTrace = (s.afterTransfer op p).sansTrace := by
  cases p with
  | none =>
    have h := sansTrace_record_congr (ideal_opcode s op) (.pin .cs true .ok)
    rw [ideal_csHigh] at h
    simpa [transferActions, cmd, exchange, Action.ideal, State.recordAll, State.afterTransfer] using h
  | some bs =>
    have h1 := sansTrace_record_congr (ideal_opcode s op) (.pin .dc true .ok)
    rw [ideal_dcHigh] at h1
    have h2 := sansTrace_recordAll_congr h1 ((exchangeAll bs).map Action.ideal)
    rw [ideal_payload] at h2
    have h3 := sansTrace_record_congr h2 (.pin .cs true .ok)
    rw [ideal_csHigh] at h3
    simpa [transferActions, cmdString, exchange, Action.ideal, State.recordAll, State.afterTransfer] using h3

end Sys2Proof.Machine
end

