-- ==== Sys2Proof/Laws/Request.lean ====
section
/-! SUPPORT. What a request does, said once: `hostOperation_of_carries`, `_of_breaks`, `_of_stalls`, `_of_restoring`
and `hostOperation_of_check` for an accepted request; `after_of_ideal`, which replaces the events of a carried sequence
by what they leave behind; which shared operation an instruction is; and what no sequence of port actions changes. -/

namespace Sys2Proof.Machine

/-- The two bytes of a 9-bit value are read back as that value (R16). -/
theorem join9_of_split9 {v : Nat} (h : v < 2 ^ Config.val9Bits) :
    ∃ lo hi, split9 v = [lo, hi] ∧ join9 lo hi = BitVec.ofNat Config.val9Bits v := by
  refine ⟨_, _, rfl, ?_⟩
  apply BitVec.eq_of_toNat_eq
  rw [join9, BitVec.toNat_append, ← Nat.shiftLeft_add_eq_or_of_lt (BitVec.isLt _), Nat.shiftLeft_eq]
  simp [Config.val9Bits] at *
  omega

/-- The state after a data transfer, but for its trace: a data byte is no command byte (R271, R352). -/
theorem ideal_data (s : State) (b : Byte) : (s.recordAll ((data b).map Action.ideal)).sansTrace =
    State.sansTrace { s with csL := .high, dcL := .high, ghost := { s.ghost with interval := none } } := by
  obtain ⟨⟩ := s
  simp [data, exchange, Action.ideal, State.recordAll, State.record, State.latch, Ghost.observe, Ghost.observePin,
    Ghost.observeSend, Ghost.observeRead, Ghost.observeByteRead, Ghost.noteSent, Ghost.exchanged, latchLevel,
    State.sansTrace, Ghost.intervalEnded]

/-- Two states with the same trace and answers to come that agree but for these are the same. -/
theorem eq_of_sansTrace {s t : State} (h : s.sansTrace = t.sansTrace) (ht : s.trace = t.trace) (he : s.env = t.env) :
    s = t := by
  obtain ⟨⟩ := s
  obtain ⟨⟩ := t
  simp_all [State.sansTrace]

theorem after_seq (s : State) (ev : List Event) (rest : Env) (n : Nat) :
    (s.after ev rest n).seq = s.seq.advanceBy n := rfl

theorem after_trace (s : State) (ev : List Event) (rest : Env) (n : Nat) :
    (s.after ev rest n).trace = s.trace ++ ev := by simp [State.after]

theorem after_env (s : State) (ev : List Event) (rest : Env) (n : Nat) : (s.after ev rest n).env = rest := by
  simp [State.after]

/-- The state after a carried sequence, from the state `u` its shortest trace leaves behind. -/
theorem after_of_ideal {acts : List Action} {ev : List Event} {s u : State} {rest : Env} (n : Nat)
    (hc : carries acts ev = true) (hu : (s.recordAll (acts.map Action.ideal)).sansTrace = u.sansTrace) :
    s.after ev rest n = { u with seq := s.seq.advanceBy n, trace := s.trace ++ ev, env := rest } := by
  apply eq_of_sansTrace
  · have h := (carries_sameBut_ideal hc s).trans hu
    have h2 : (s.after ev rest n).sansTrace =
        { (s.recordAll ev).sansTrace with seq := s.seq.advanceBy n } := by
      simp [State.after, State.sansTrace, recordAll_withEnv]
    rw [h2, h]
    rfl
  · simp [after_trace]
  · simp [after_env]

theorem sansTrace_append {s t u : State} {as bs : List Action}
    (h : (s.recordAll (as.map Action.ideal)).sansTrace = t.sansTrace)
    (h' : (t.recordAll (bs.map Action.ideal)).sansTrace = u.sansTrace) :
    (s.recordAll ((as ++ bs).map Action.ideal)).sansTrace = u.sansTrace := by
  rw [List.map_append, recordAll_append, sansTrace_recordAll_congr h, h']

theorem ideal_cmd (s : State) (op : Byte) :
    (s.recordAll ((cmd op).map Action.ideal)).sansTrace = (s.afterTransfer op none).sansTrace := ideal_transfer s op none

theorem ideal_cmdString (s : State) (op : Byte) (bs : List Byte) :
    (s.recordAll ((cmdString op bs).map Action.ideal)).sansTrace = (s.afterTransfer op (some bs)).sansTrace :=
  ideal_transfer s op (some bs)

/-- The state, but for its trace, after a busy-wait (R275). -/
def State.afterBusyWait (s : State) : State :=
  { s with ghost := s.ghost.observePoll s.context (.ok false) }

theorem ideal_busyWait (s : State) :
    (s.recordAll (busyWait.map Action.ideal)).sansTrace = s.afterBusyWait.sansTrace := rfl

/-! ### An accepted request -/

theorem hostOperation_of_check {i : Instr} {check : State → Option Status} {acts : State → List Action} {s : State}
    {st : Status} (hw : i.wellFormed s.params.commands = true) (hs : s.accepting) (hc : check s = some st) :
    hostOperation i check acts s = .next { s with status := st } := by
  obtain ⟨hl, hq⟩ := hs
  obtain ⟨⟩ := s
  simp only at hl hq
  subst hl hq
  simp [hostOperation, hw, execute, hc, abort]

/-- A request whose actions the environment answers to their end, from the state `u` the shortest trace leaves. -/
theorem hostOperation_of_carries {i : Instr} {check : State → Option Status} {acts : State → List Action} {s u : State}
    {ev : List Event} {rest : Env} (hw : i.wellFormed s.params.commands = true) (hs : s.accepting) (hc : check s = none)
    (ha : s.answers (acts s) ev rest)
    (hu : ((start i s).recordAll ((acts s).map Action.ideal)).sansTrace = u.sansTrace) :
    hostOperation i check acts s =
      .next { u with seq := .idle, status := .ok, trace := s.trace ++ ev, env := rest } := by
  have h := runActions_of_carries ha.2 (s := start i s) (by simpa using ha.1)
  simp only [hostOperation, hs.2, hw, if_true, hs.1, execute, hc, h, settle, after_of_ideal _ ha.2 hu]
  rfl

theorem hostOperation_of_breaks {i : Instr} {check : State → Option Status} {acts : State → List Action} {s : State}
    {x : ErrVal} {ev : List Event} {rest : Env} (hw : i.wellFormed s.params.commands = true) (hs : s.accepting) (hc : check s = none)
    (he : s.env = Env.giving ev rest) (hb : breaks x (acts s) ev = true) :
    ∃ n, hostOperation i check acts s = .next (abort (.transportError x) ((start i s).after ev rest n)) := by
  obtain ⟨n, h⟩ := runActions_of_breaks hb (s := start i s) (by simpa using he)
  exact ⟨n, by simp only [hostOperation, hs.2, hw, if_true, hs.1, execute, hc, h, settle]⟩

theorem hostOperation_of_stalls {i : Instr} {check : State → Option Status} {acts : State → List Action} {s : State}
    {n : Nat} {ev : List Event} {rest : Env} (hw : i.wellFormed s.params.commands = true) (hs : s.accepting) (hc : check s = none)
    (he : s.env = Env.giving ev rest) (hb : stalls rest (acts s) ev n = true) :
    hostOperation i check acts s = .next ((start i s).after ev rest n) := by
  have h := runActions_of_stalls hb (s := start i s) (by simpa using he)
  simp only [hostOperation, hs.2, hw, if_true, hs.1, execute, hc, h, settle]

theorem hostOperation_of_restoring {i : Instr} {check : State → Option Status} {acts : State → List Action} {s : State}
    {x : ErrVal} {n : Nat} {ev : List Event} {rest : Env} (hw : i.wellFormed s.params.commands = true) (hs : s.accepting)
    (hc : check s = none) (he : s.env = Env.giving ev rest) (hb : restoring x rest (acts s) ev n = true) :
    hostOperation i check acts s = .next { (start i s).after ev rest n with
      seq := .exec { req := requestOf s.params.commands i, upc := n, failing := some x } } := by
  have h := runActions_of_restoring hb (s := start i s) (by simpa using he)
  simp only [hostOperation, hs.2, hw, if_true, hs.1, execute, hc, h, settle, start_seq, advanceBy_exec, Seq.holdError,
    Nat.zero_add]

/-! ### Which shared operation an instruction is -/

/-- Every host operation but INIT is `hostOperation` with its check and its sequence (R307, R33). -/
theorem exec_eq_hostOperation {i : Instr} {q : Request} {s : State} (h : encode s.params.commands i = .request q)
    (hi : ∀ p, i ≠ .init p) : exec i s = hostOperation i (checkOf i) (sequenceOf i) s := by
  cases i <;> first | rfl | exact absurd rfl (hi _) | simp [encode] at h

/-- Every controller command is `commandTransfer` of its name and payload (R110). -/
theorem exec_eq_commandTransfer (k : Command) (p : Payload) (s : State) : exec (k.instr p) s = commandTransfer k p s := by
  cases k <;> rfl

theorem requestOf_eq {c : CommandTable} {i : Instr} {q : Request} (h : encode c i = .request q) :
    requestOf c i = q := by
  simp [requestOf, h]

/-- A command transfer the environment answers to its end. -/
theorem commandTransfer_of_carries {k : Command} {p : Payload} {r : Running} {s : State} {ev : List Event} {rest : Env}
    (hq : s.seq = .exec r) (hf : r.failing = none) (ha : s.answers (transferActions (s.opc k) p) ev rest) :
    commandTransfer k p s = .next
      { s with
        seq := .exec { r with upc := r.upc + (transferActions (s.opc k) p).length }
        csL := .high, dcL := if p.isSome then .high else .low, trace := s.trace ++ ev, env := rest
        ghost := s.ghost.afterTransfer s.context (s.opc k) (p.getD []) } := by
  have h := runActions_of_carries ha.2 ha.1
  simp only [commandTransfer, hq, hf, h, settle, after_of_ideal _ ha.2 (ideal_transfer _ _ _)]
  simp [State.afterTransfer, hf]

/-! ### What no sequence of port actions changes -/

/-- The state a progress stands at. -/
def Progress.state (p : Progress) : State :=
  match p with
  | .done s => s
  | .waiting s => s
  | .failed _ s => s

/-- No port action writes LIFE, the owned registers, REFUSED, the holds or the host's requests (R80). -/
theorem runActions_owned (acts : List Action) (s : State) : OwnedUnchanged s (runActions acts s).state := by
  obtain ⟨ev, rest, hc, he, h⟩ | ⟨x, ev, rest, n, hc, he, h⟩ | ⟨ev, rest, n, hc, he, h⟩ | ⟨x, ev, rest, n, hc, he, h⟩ :=
    runActions_cases acts s <;> rw [h] <;> constructor <;> simp [Progress.state, State.after]

/-- A sequence of port actions only adds to the trace (R13). -/
theorem runActions_trace (acts : List Action) (s : State) :
    ∃ ev, (runActions acts s).state.trace = s.trace ++ ev := by
  obtain ⟨ev, rest, hc, he, h⟩ | ⟨x, ev, rest, n, hc, he, h⟩ | ⟨ev, rest, n, hc, he, h⟩ | ⟨x, ev, rest, n, hc, he, h⟩ :=
    runActions_cases acts s <;> exact ⟨ev, by rw [h]; simp [Progress.state, State.after]⟩

end Sys2Proof.Machine
end

