-- ==== Sys2Proof/Tests/Slice0.lean ====
section
/-! SUPPORT. Tests. Expected values come from spec/95_test_vectors.md (the vector's name stands by each test) or are
written out by hand from the rule named; then, for every statement with hypotheses, a concrete state and operands that
meet them all (`witness_<Name>`). -/

namespace Sys2Proof.Tests

open Sys2Proof Sys2Proof.Machine

/-! ### Helpers -/

/-- `TX b` (R13). -/
def tx (b : Byte) : List Event := [.send b .ok, .read (.ok 0x5A#8)]

/-- `CMD name`: `CS0 DC0 TX opc CS1` (R142). -/
def cmdEv (op : Byte) : List Event := [.pin .cs false .ok, .pin .dc false .ok] ++ tx op ++ [.pin .cs true .ok]

/-- `CMD name [p0 p1 ...]`: `CS0 DC0 TX opc DC1 TX p0 TX p1 ... CS1` (R142). -/
def strEv (op : Byte) (p : List Byte) : List Event :=
  [.pin .cs false .ok, .pin .dc false .ok] ++ tx op ++ [.pin .dc true .ok] ++ p.flatMap tx ++ [.pin .cs true .ok]

/-- `BUSY1` and `BUSY0`. -/
def busy1 : List Event := [.poll (.ok true)]

def busy0 : List Event := [.poll (.ok false)]

/-- A state whose environment gives the answers of `ev`. -/
def given (s : State) (ev : List Event) : State := { s with env := Env.giving ev Env.reset }

def stateOf (o : Host.Outcome State Fault Refusal) : Option State :=
  match o with
  | .next t => some t
  | .fault _ => none
  | .refused _ => none

/-- What happened in an outcome from `s`: the new events, and STATUS; `none` for a fault, a refusal or a request that
still executes. -/
def ended (s : State) (o : Host.Outcome State Fault Refusal) : Option (List Event × Status) :=
  match stateOf o with
  | none => none
  | some t => if t.seq = .idle then some (t.trace.drop s.trace.length, t.status) else none

/-- Whether instruction `i` from `s`, given the answers of `ev`, ends with exactly the events `ev` and status `st`. -/
def endsWith (i : Instr) (s : State) (ev : List Event) (st : Status) : Bool :=
  decide (ended s (exec i (given s ev)) = some (ev, st))

def ghostOf (o : Host.Outcome State Fault Refusal) : Option Ghost := (stateOf o).map State.ghost

/-- The bytes `b, b+1, ..., b+29`. -/
def ramp (b : Nat) : List Byte := (List.range 30).map fun k => BitVec.ofNat 8 (b + k)

/-- The test profile TP of 95_test_vectors.md. -/
def tp : Profile :=
  { w := 200#16, h := 200#16, ss0 := 0xD7#8, ss1 := 0xD6#8, ss2 := 0x9D#8, vcom := 0xA8#8, dummy := 0x1A#8,
    gate := 0x08#8, entry := 1#8, lutF := ramp 0, lutP := ramp 0x80 }

/-- TP's image, offsets 0 to 10 as 95_test_vectors.md writes them. -/
def tpImage : List Byte :=
  [0xC8#8, 0x00#8, 0xC8#8, 0x00#8, 0xD7#8, 0xD6#8, 0x9D#8, 0xA8#8, 0x1A#8, 0x08#8, 0x01#8] ++ ramp 0 ++ ramp 0x80

/-- READY_TP of 95_test_vectors.md. -/
def ready : State :=
  { State.reset with
    life := .ready, w := 200#16, h := 200#16, lutF := ramp 0, lutP := ramp 0x80, csL := .high, dcL := .high,
    rstL := .high, status := .ok
    ghost := { Ghost.reset with shadow := { Shadow.reset with ramOpen := some false } } }

/-- READY on a panel of one byte, W = H = 1 (V-SHOW-3). -/
def readyOne : State := { ready with w := 1#16, h := 1#16 }

/-- READY while a request executes, at its first port action. -/
def executing (r : Request) : State := { ready with seq := .exec { req := r, upc := 0, failing := none } }

/-- INIT_TP of 95_test_vectors.md. -/
def initEv : List Event :=
  [.pin .rst false .ok, .pin .cs true .ok, .pin .dc true .ok, .delay 10#16, .pin .rst true .ok, .delay 10#16]
    ++ strEv 0x01#8 [0xC7#8, 0x00#8, 0x00#8] ++ strEv 0x0C#8 [0xD7#8, 0xD6#8, 0x9D#8] ++ strEv 0x2C#8 [0xA8#8]
    ++ strEv 0x3A#8 [0x1A#8] ++ strEv 0x3B#8 [0x08#8] ++ strEv 0x11#8 [0x01#8]

/-- V-SDA-1's trace. -/
def areaEv : List Event :=
  strEv 0x44#8 [0x00#8, 0x18#8] ++ strEv 0x45#8 [0xC7#8, 0x00#8, 0x00#8, 0x00#8] ++ strEv 0x4E#8 [0x00#8]
    ++ strEv 0x4F#8 [0xC7#8, 0x00#8]

/-- V-SHOW-3's trace, on a panel of one byte with TP's full table. -/
def showOneEv : List Event :=
  strEv 0x32#8 (ramp 0) ++ strEv 0x22#8 [0xC0#8] ++ cmdEv 0x20#8 ++ busy0 ++ strEv 0x44#8 [0x00#8, 0x00#8]
    ++ strEv 0x45#8 [0x00#8, 0x00#8, 0x00#8, 0x00#8] ++ strEv 0x4E#8 [0x00#8] ++ strEv 0x4F#8 [0x00#8, 0x00#8]
    ++ busy0 ++ strEv 0x24#8 [0xAB#8] ++ strEv 0x22#8 [0xC7#8] ++ cmdEv 0x20#8 ++ cmdEv 0xFF#8
    ++ strEv 0x22#8 [0xC3#8] ++ cmdEv 0x20#8

/-! ### Well-formedness: for each check an ill-formed term that it refuses (R103 items 5 and 6, R107) -/

theorem test_wellFormed_tp : (Instr.init tp).wellFormed Config.commands = true := by decide

theorem test_wellFormed_refuses_width : (Instr.init { tp with w := 0#16 }).wellFormed Config.commands = false ∧
    (Instr.init { tp with w := 2041#16 }).wellFormed Config.commands = false ∧
    (Instr.init { tp with w := 2040#16 }).wellFormed Config.commands = true := by decide

theorem test_wellFormed_refuses_height : (Instr.init { tp with h := 0#16 }).wellFormed Config.commands = false ∧
    (Instr.init { tp with h := 512#16 }).wellFormed Config.commands = false ∧
    (Instr.init { tp with h := 511#16 }).wellFormed Config.commands = true := by decide

theorem test_wellFormed_refuses_entry : (Instr.init { tp with entry := 4#8 }).wellFormed Config.commands = false := by decide

theorem test_wellFormed_refuses_tables : (Instr.init { tp with lutF := [] }).wellFormed Config.commands = false ∧
    (Instr.init { tp with lutP := ramp 0 ++ [0#8] }).wellFormed Config.commands = false := by decide

theorem test_wellFormed_refuses_opcode : (Instr.writeCmd 0x0E#8).wellFormed Config.commands = false ∧
    (Instr.writeCmdString 0x30#8 [0#8]).wellFormed Config.commands = false ∧ (Instr.writeCmd 0x10#8).wellFormed Config.commands = true := by decide

/-- A table that R121 allows, with another GK opcode and a CATALOG of the fifteen alone. -/
def otherTable : CommandTable :=
  { Config.commands with
    setGateLineWidth := 0x3D#8
    catalog := Command.emitted.map fun k => if k = .setGateLineWidth then 0x3D#8 else Config.commands.opcode k }

/-- R121: two commands with one opcode, another value for a source opcode, a command of R121 outside CATALOG. -/
theorem test_legal_tables : Config.commands.legal = true ∧ otherTable.legal = true ∧
    { Config.commands with setGateLineWidth := 0x3A#8 }.legal = false ∧
    { Config.commands with nop := 0xFE#8, catalog := 0xFE#8 :: Config.commands.catalog }.legal = false ∧
    { Config.commands with catalog := [0xFF#8] }.legal = false := by decide

/-- R122, R103 item 5: CATALOG decides which raw opcodes are refused, and OPC which opcode is a command's. -/
theorem test_catalog_is_a_parameter :
    decodeRequest otherTable { desc := 0x0010_000B#80, buf := [] } = .error .opcodeNotInCatalog ∧
    decodeRequest otherTable { desc := 0x003D_000B#80, buf := [] } = .ok (.writeCmd 0x3D) ∧
    decodeTransfer otherTable { opcode := 0x3D#8, payload := some [1#8] } = .ok (.setGateLineWidth (some [1#8])) ∧
    (Instr.deepSleepMode none).wellFormed otherTable = false := by decide

/-- R121's payload lengths. -/
theorem test_catalogShaped : (Instr.driverOutputControl (some [0#8])).catalogShaped = false ∧
    (Instr.driverOutputControl none).catalogShaped = false ∧ (Instr.masterActivation (some [])).catalogShaped = false ∧
    (Instr.writeRam none).catalogShaped = false ∧ (Instr.writeRam (some [])).catalogShaped = true ∧
    (Instr.setRamYAddressCounter (some [1#8, 0#8])).catalogShaped = true := by decide

/-! ### Decoding, from words written out by the fields of R100 and R101, and the opcodes of R121 and R122 -/

theorem test_decode_init : decodeRequest Config.commands { desc := 0x0000_0000_0000_0000_0000#80, buf := tpImage } = .ok (.init tp) := by
  decide

theorem test_decode_operands :
    decodeRequest Config.commands { desc := 0x0000_00C7_0018_0000_0001#80, buf := [] } = .ok (.setDisplayArea 0 24 199 0) ∧
    decodeRequest Config.commands { desc := 0x0002_00C7_0002_000A_000A#80, buf := [1#8] } =
      .ok (.loadPartialImage 10 2 199 2 [1#8]) ∧
    decodeRequest Config.commands { desc := 0x0000_0000_0000_00FF_000B#80, buf := [] } = .ok (.writeCmd 0xFF) ∧
    decodeRequest Config.commands { desc := 0x0000_0000_0000_0001_000C#80, buf := [] } = .ok (.writeData 0x01) ∧
    decodeRequest Config.commands { desc := 0x0000_0000_0000_0010_000D#80, buf := [1#8] } = .ok (.writeCmdString 0x10 [1#8]) := by
  decide

theorem test_decode_bare :
    decodeRequest Config.commands { desc := 0x02#80, buf := [] } = .ok .loadFullLut ∧
    decodeRequest Config.commands { desc := 0x03#80, buf := [] } = .ok .loadPartialLut ∧
    decodeRequest Config.commands { desc := 0x04#80, buf := [0xAA#8] } = .ok (.loadImage [0xAA#8]) ∧
    decodeRequest Config.commands { desc := 0x05#80, buf := [] } = .ok .powerOn ∧
    decodeRequest Config.commands { desc := 0x06#80, buf := [] } = .ok .updateFull ∧
    decodeRequest Config.commands { desc := 0x07#80, buf := [] } = .ok .updatePartial ∧
    decodeRequest Config.commands { desc := 0x08#80, buf := [] } = .ok .powerOff ∧
    decodeRequest Config.commands { desc := 0x09#80, buf := [0xAA#8] } = .ok (.showFullScreenImage [0xAA#8]) := by decide

theorem test_decode_commands (p : Payload) :
    decodeTransfer Config.commands { opcode := 0x01#8, payload := p } = .ok (.driverOutputControl p) ∧
    decodeTransfer Config.commands { opcode := 0x0C#8, payload := p } = .ok (.boosterSoftStartControl p) ∧
    decodeTransfer Config.commands { opcode := 0x11#8, payload := p } = .ok (.dataEntryModeSetting p) ∧
    decodeTransfer Config.commands { opcode := 0x20#8, payload := p } = .ok (.masterActivation p) ∧
    decodeTransfer Config.commands { opcode := 0x22#8, payload := p } = .ok (.displayUpdateControl2 p) ∧
    decodeTransfer Config.commands { opcode := 0x24#8, payload := p } = .ok (.writeRam p) ∧
    decodeTransfer Config.commands { opcode := 0x2C#8, payload := p } = .ok (.writeVcomRegister p) ∧
    decodeTransfer Config.commands { opcode := 0x32#8, payload := p } = .ok (.writeLutRegister p) ∧
    decodeTransfer Config.commands { opcode := 0x3A#8, payload := p } = .ok (.setDummyLinePeriod p) ∧
    decodeTransfer Config.commands { opcode := 0x3B#8, payload := p } = .ok (.setGateLineWidth p) ∧
    decodeTransfer Config.commands { opcode := 0x44#8, payload := p } = .ok (.setRamXAddressStartEndPosition p) ∧
    decodeTransfer Config.commands { opcode := 0x45#8, payload := p } = .ok (.setRamYAddressStartEndPosition p) ∧
    decodeTransfer Config.commands { opcode := 0x4E#8, payload := p } = .ok (.setRamXAddressCounter p) ∧
    decodeTransfer Config.commands { opcode := 0x4F#8, payload := p } = .ok (.setRamYAddressCounter p) ∧
    decodeTransfer Config.commands { opcode := 0xFF#8, payload := p } = .ok (.nop p) ∧
    decodeTransfer Config.commands { opcode := 0x0F#8, payload := p } = .ok (.gateScanStartPosition p) ∧
    decodeTransfer Config.commands { opcode := 0x10#8, payload := p } = .ok (.deepSleepMode p) ∧
    decodeTransfer Config.commands { opcode := 0x12#8, payload := p } = .ok (.swReset p) ∧
    decodeTransfer Config.commands { opcode := 0x1A#8, payload := p } = .ok (.temperatureSensorControl p) ∧
    decodeTransfer Config.commands { opcode := 0x21#8, payload := p } = .ok (.displayUpdateControl1 p) ∧
    decodeTransfer Config.commands { opcode := 0x3C#8, payload := p } = .ok (.borderWaveformControl p) ∧
    decodeTransfer Config.commands { opcode := 0x0E#8, payload := p } = .error .opcodeNotInCatalog := by
  refine ⟨?_, ?_, ?_, ?_, ?_, ?_, ?_, ?_, ?_, ?_, ?_, ?_, ?_, ?_, ?_, ?_, ?_, ?_, ?_, ?_, ?_, ?_⟩ <;> rfl

/-- V-ENC-4 to V-ENC-12. -/
theorem test_decode_refuses :
    decodeRequest Config.commands { desc := 0x0E#80, buf := [] } = .error .reservedOp ∧
    decodeRequest Config.commands { desc := 0xFF#80, buf := [] } = .error .reservedOp ∧
    decodeRequest Config.commands { desc := 0x0102#80, buf := [] } = .error .reservedField ∧
    decodeRequest Config.commands { desc := 0x0001_0002#80, buf := [] } = .error .unusedOperand ∧
    decodeRequest Config.commands { desc := 0x01FF_000B#80, buf := [] } = .error .unusedOperand ∧
    decodeRequest Config.commands { desc := 0x05#80, buf := [0#8] } = .error .unexpectedBuffer ∧
    decodeRequest Config.commands { desc := 0x000E_000B#80, buf := [] } = .error .opcodeNotInCatalog ∧
    decodeRequest Config.commands { desc := 0x0030_000D#80, buf := [0#8] } = .error .opcodeNotInCatalog ∧
    decodeRequest Config.commands { desc := 0x00#80, buf := tpImage.drop 1 } = .error .profileLength := by decide

/-- V-ENC-13 to V-ENC-16: TP with W = 0, W = 2041, H = 512, ENTRY = 4. -/
theorem test_decode_refuses_profiles :
    decodeRequest Config.commands { desc := 0x00#80, buf := tpImage.set 0 0#8 } = .error .illegalProfile ∧
    decodeRequest Config.commands { desc := 0x00#80, buf := (tpImage.set 0 0xF9#8).set 1 0x07#8 } = .error .illegalProfile ∧
    decodeRequest Config.commands { desc := 0x00#80, buf := (tpImage.set 2 0#8).set 3 0x02#8 } = .error .illegalProfile ∧
    decodeRequest Config.commands { desc := 0x00#80, buf := tpImage.set 10 0x04#8 } = .error .illegalProfile := by decide

/-- A table word is decoded, and is what the next step runs. -/
theorem test_table_words :
    decodeTableWord 80 0x05 = some .powerOn ∧ decodeTableWord 16 0x01 = some (.setDisplayArea 0 0 0 0) ∧
    decodeTableWord 80 0xFF_000B = some (.writeCmd 0xFF) ∧ decodeTableWord 80 0x0E = none ∧
    decodeTableWord 8 0xFF = some (.nop none) ∧ decodeTableWord 8 0x2C = some (.writeVcomRegister (some [0#8])) ∧
    (decodeTableWord 80 0x00).isSome = true ∧
    (match step (State.reset.withFetchWord 8 0x2C), thenResume (exec (.writeVcomRegister (some [0#8]))
        (State.reset.withFetchWord 8 0x2C)) with
      | .next t, .next u => decide (t = u)
      | _, _ => false) = true := by decide

/-! ### Operand forms -/

/-- E1. -/
theorem test_byteWidth : byteWidth 200 = 25 ∧ byteWidth 1 = 1 ∧ byteWidth 8 = 1 ∧ byteWidth 9 = 2 ∧ byteWidth 2040 = 255 := by
  decide

/-- V-INIT-2 to V-INIT-5, V-SDA-11, and the examples of R125 and R130. -/
theorem test_packers : packDriverOutput 1 = [0x00#8, 0x00#8, 0x00#8] ∧ packDriverOutput 256 = [0xFF#8, 0x00#8, 0x00#8] ∧
    packDriverOutput 257 = [0x00#8, 0x01#8, 0x00#8] ∧ packDriverOutput 511 = [0xFE#8, 0x01#8, 0x00#8] ∧
    packDriverOutput 200 = [0xC7#8, 0x00#8, 0x00#8] ∧ packYWindow 99 80 = [0x63#8, 0x00#8, 0x50#8, 0x00#8] ∧
    packYWindow 299 256 = [0x2B#8, 0x01#8, 0x00#8, 0x01#8] ∧ packYCounter 299 = [0x2B#8, 0x01#8] := by decide

/-! ### The operations, one step each -/

/-- V-INIT-1: from reset. -/
theorem test_init : endsWith (.init tp) State.reset initEv .ok = true ∧
    (stateOf (exec (.init tp) (given State.reset initEv))).map (fun t => { t with trace := [] }) = some ready := by
  decide

/-- V-INIT-8: the SEND of the first opcode fails; LIFE stays UNINIT and CS is restored. -/
theorem test_init_fails :
    endsWith (.init tp) State.reset (initEv.take 8 ++ [.send 0x01#8 (.err 7), .pin .cs true .ok]) (.transportError 7) = true ∧
    (stateOf (exec (.init tp) (given State.reset [.pin .rst false (.err 7)]))).map
      (fun t => (t.life, t.rstL, t.csL, t.status)) = some (.uninit, .unknown, .unknown, .transportError 7) := by decide

/-- V-SDA-1 with its ghost. -/
theorem test_setDisplayArea : endsWith (.setDisplayArea 0 24 199 0) ready areaEv .ok = true ∧
    (ghostOf (exec (.setDisplayArea 0 24 199 0) (given ready areaEv))).map
      (fun g => (g.shadow.winX, g.shadow.winY, g.shadow.cntX, g.shadow.cntY)) =
      some (some (0#8, 24#8), some (199#9, 0#9), some 0#8, some 199#9) := by decide

/-- V-SDA-3 to V-SDA-9. -/
theorem test_setDisplayArea_bounds :
    endsWith (.setDisplayArea 26 0 0 0) ready [] .boundsError = true ∧
    endsWith (.setDisplayArea 0 26 0 0) ready [] .boundsError = true ∧
    endsWith (.setDisplayArea 0 0 201 0) ready [] .boundsError = true ∧
    endsWith (.setDisplayArea 0 0 0 201) ready [] .boundsError = true ∧
    endsWith (.setDisplayArea 65535 65535 65535 65535) ready [] .boundsError = true ∧
    endsWith (.setDisplayArea 25 25 200 200) ready (strEv 0x44#8 [0x19#8, 0x19#8]
      ++ strEv 0x45#8 [0xC8#8, 0x00#8, 0xC8#8, 0x00#8] ++ strEv 0x4E#8 [0x19#8] ++ strEv 0x4F#8 [0xC8#8, 0x00#8]) .ok = true ∧
    endsWith (.setDisplayArea 10 2 0 199) ready (strEv 0x44#8 [0x0A#8, 0x02#8]
      ++ strEv 0x45#8 [0x00#8, 0x00#8, 0xC7#8, 0x00#8] ++ strEv 0x4E#8 [0x0A#8] ++ strEv 0x4F#8 [0x00#8, 0x00#8]) .ok = true := by
  decide

/-- V-LUT-1. -/
theorem test_loadFullLut : endsWith .loadFullLut ready (strEv 0x32#8 (ramp 0)) .ok = true := by decide

/-- V-LUT-2. -/
theorem test_loadPartialLut : endsWith .loadPartialLut ready (strEv 0x32#8 (ramp 0x80)) .ok = true := by decide

/-- V-LI-1 and V-LI-2. -/
theorem test_loadImage :
    endsWith (.loadImage [0xAA#8, 0x55#8]) ready (busy1 ++ busy1 ++ busy0 ++ strEv 0x24#8 [0xAA#8, 0x55#8]) .ok = true ∧
    endsWith (.loadImage []) ready (busy0 ++ strEv 0x24#8 []) .ok = true := by decide

/-- V-LI-4 and V-LI-5: high for ever hangs with no pin driven; a failed POLL ends the request with no pin driven. -/
theorem test_loadImage_busy :
    (stateOf (exec (.loadImage [1#8]) (given ready (busy1 ++ busy1)))).map (fun t => (t.trace, t.status, decide (t.seq = .idle))) =
      some (busy1 ++ busy1, .ok, false) ∧
    endsWith (.loadImage [1#8]) ready (busy1 ++ [.poll (.err 3)]) (.transportError 3) = true := by decide

set_option maxRecDepth 4000 in
/-- V-LPI-3, with a region of 1 x 20: y_end = 0 exactly. -/
theorem test_loadPartialImage :
    endsWith (.loadPartialImage 0 1 19 20 (List.replicate 20 0xFF#8)) ready
      (strEv 0x44#8 [0x00#8, 0x00#8] ++ strEv 0x45#8 [0x13#8, 0x00#8, 0x00#8, 0x00#8] ++ strEv 0x4E#8 [0x00#8]
        ++ strEv 0x4F#8 [0x13#8, 0x00#8] ++ busy0 ++ strEv 0x24#8 (List.replicate 20 0xFF#8)) .ok = true := by decide

set_option maxRecDepth 2000 in
/-- V-LPI-2, 4, 5, 6, 7, 8, 9, 12. -/
theorem test_loadPartialImage_checks :
    endsWith (.loadPartialImage 0 5 99 20 (List.replicate 99 0#8)) ready [] .lengthError = true ∧
    endsWith (.loadPartialImage 0 5 18 20 (List.replicate 100 0#8)) ready [] .boundsError = true ∧
    endsWith (.loadPartialImage 22 5 199 1 (List.replicate 5 0#8)) ready [] .boundsError = true ∧
    endsWith (.loadPartialImage 0 0 5 1 []) ready [] .boundsError = true ∧
    endsWith (.loadPartialImage 0 5 5 0 []) ready [] .boundsError = true ∧
    endsWith (.loadPartialImage 0 0 5 1 [1#8]) ready [] .lengthError = true ∧
    endsWith (.loadPartialImage 0 1 250 1 [1#8]) ready [] .boundsError = true := by decide

/-- V-PWR-1. -/
theorem test_powerOn : endsWith .powerOn ready (strEv 0x22#8 [0xC0#8] ++ cmdEv 0x20#8 ++ busy1 ++ busy0) .ok = true ∧
    (ghostOf (exec .powerOn (given ready (strEv 0x22#8 [0xC0#8] ++ cmdEv 0x20#8 ++ busy0)))).map
      (fun g => (g.phase, g.updWindow)) = some (.powered, false) := by decide

/-- V-PWR-2 and V-PWR-8. -/
theorem test_updateFull : endsWith .updateFull ready (strEv 0x22#8 [0xC7#8] ++ cmdEv 0x20#8 ++ cmdEv 0xFF#8) .ok = true ∧
    (ghostOf (exec .updateFull (given ready (strEv 0x22#8 [0xC7#8] ++ cmdEv 0x20#8 ++ cmdEv 0xFF#8)))).map
      (fun g => (g.phase, g.updWindow, g.hazStrict, g.lutMismatch)) = some (.updatingFull, true, false, true) := by decide

/-- V-PWR-3. -/
theorem test_updatePartial :
    endsWith .updatePartial ready (strEv 0x22#8 [0x04#8] ++ cmdEv 0x20#8 ++ cmdEv 0xFF#8) .ok = true ∧
    (ghostOf (exec .updatePartial (given ready (strEv 0x22#8 [0x04#8] ++ cmdEv 0x20#8 ++ cmdEv 0xFF#8)))).map
      (fun g => (g.phase, g.updWindow)) = some (.updatingPartial, true) := by decide

/-- V-PWR-4, and R353's hazard when an update runs. -/
theorem test_powerOff : endsWith .powerOff ready (strEv 0x22#8 [0xC3#8] ++ cmdEv 0x20#8) .ok = true ∧
    (ghostOf (exec .powerOff (given { ready with ghost := { ready.ghost with updWindow := true } }
      (strEv 0x22#8 [0xC3#8] ++ cmdEv 0x20#8)))).map (fun g => (g.phase, g.updWindow, g.hazSrc)) =
      some (.poweringOff, true, true) := by decide

set_option maxRecDepth 8000 in
/-- V-SHOW-3. -/
theorem test_showFullScreenImage : endsWith (.showFullScreenImage [0xAB#8]) readyOne showOneEv .ok = true := by decide

/-- V-SHOW-2 and E1's row W = 9: an image of another length sends nothing. -/
theorem test_showFullScreenImage_length :
    endsWith (.showFullScreenImage []) ready [] .lengthError = true ∧
    endsWith (.showFullScreenImage [1#8, 2#8]) readyOne [] .lengthError = true ∧
    checkFull 400 { ready with w := 9#16 } = none ∧ checkFull 4999 ready = some .lengthError := by decide

/-- V-PRIM-1 and V-PRIM-6. -/
theorem test_writeCmd : endsWith (.writeCmd 0xFF) ready (cmdEv 0xFF#8) .ok = true ∧
    endsWith (.writeCmd 0xFF) ready ([.pin .cs false .ok, .pin .dc false .ok, .send 0xFF#8 .wouldblock,
      .send 0xFF#8 .wouldblock, .send 0xFF#8 .ok, .read .wouldblock, .read (.ok 9#8), .pin .cs true .ok]) .ok = true := by
  decide

/-- V-ERR-1 to V-ERR-6. -/
theorem test_writeCmd_errors :
    endsWith (.writeCmd 0xFF) ready [.pin .cs false (.err 1), .pin .cs true .ok] (.transportError 1) = true ∧
    endsWith (.writeCmd 0xFF) ready [.pin .cs false .ok, .pin .dc false (.err 1), .pin .cs true .ok] (.transportError 1) = true ∧
    endsWith (.writeCmd 0xFF) ready [.pin .cs false .ok, .pin .dc false .ok, .send 0xFF#8 .ok, .read (.err 1),
      .pin .cs true .ok] (.transportError 1) = true ∧
    endsWith (.writeCmd 0xFF) ready ((cmdEv 0xFF#8).dropLast ++ [.pin .cs true (.err 1)]) (.transportError 1) = true ∧
    endsWith (.writeCmd 0xFF) ready [.pin .cs false (.err 1), .pin .cs true (.err 2)] (.transportError 1) = true := by
  decide

/-- V-PRIM-2. -/
theorem test_writeData : endsWith (.writeData 0x01) ready
    ([.pin .cs false .ok, .pin .dc true .ok] ++ tx 0x01#8 ++ [.pin .cs true .ok]) .ok = true := by decide

/-- V-PRIM-3 and V-PRIM-4. -/
theorem test_writeCmdString : endsWith (.writeCmdString 0x10 [0x01#8]) ready (strEv 0x10#8 [0x01#8]) .ok = true ∧
    endsWith (.writeCmdString 0x24 []) ready (strEv 0x24#8 []) .ok = true := by decide

/-- V-ENC-17, and P4 request 6: a refusal writes REFUSED only. -/
theorem test_refusals :
    exec .powerOn State.reset = .next { State.reset with refused := true } ∧
    step { ready with host := [{ desc := 0x000E_000B#80, buf := [] }] } = .next { ready with refused := true } :=
  ⟨rfl, rfl⟩

/-- The trace of a controller command given to an executing engine, and where µpc is after it. -/
def commandRun (i : Instr) (ev : List Event) : Option (List Event × Seq) :=
  (stateOf (exec i (given (executing { desc := 0x0B#80, buf := [] }) ev))).map fun t => (t.trace, t.seq)

/-- R110: a bare command is `CS0 DC0 TX opc CS1`, five port actions; with a payload DC goes high before it. -/
theorem test_commands :
    commandRun (.nop none) (cmdEv 0xFF#8) =
      some (cmdEv 0xFF#8, .exec { req := { desc := 0x0B#80, buf := [] }, upc := 5, failing := none }) ∧
    commandRun (.driverOutputControl (some [0xC7#8, 0#8, 0#8])) (strEv 0x01#8 [0xC7#8, 0#8, 0#8]) =
      some (strEv 0x01#8 [0xC7#8, 0#8, 0#8],
        .exec { req := { desc := 0x0B#80, buf := [] }, upc := 12, failing := none }) ∧
    commandRun (.deepSleepMode (some [1#8])) (strEv 0x10#8 [1#8]) =
      some (strEv 0x10#8 [1#8], .exec { req := { desc := 0x0B#80, buf := [] }, upc := 8, failing := none }) := by decide

/-- R273: a failing command ends its request, CS driven high once. -/
theorem test_command_fails :
    commandRun (.masterActivation none) [.pin .cs false .ok, .pin .dc false (.err 4), .pin .cs true .ok] =
      some ([.pin .cs false .ok, .pin .dc false (.err 4), .pin .cs true .ok], .idle) := by decide

/-- V-HAZ-3 and V-HAZ-7: a raw Nop, and an INIT, inside UPD_WINDOW. -/
theorem test_hazards :
    (ghostOf (exec (.writeCmd 0xFF) (given { ready with ghost := { ready.ghost with updWindow := true } } (cmdEv 0xFF#8)))).map
      (fun g => (g.hazSrc, g.hazStrict)) = some (false, true) ∧
    (ghostOf (exec (.init tp) (given { ready with ghost := { ready.ghost with updWindow := true } } initEv))).map
      (fun g => (g.hazSrc, g.hazStrict, g.updWindow)) = some (true, true, false) := by decide

/-! ### Witnesses: for every statement with hypotheses, a concrete case that meets them all -/

theorem ready_accepting : ready.accepting := ⟨rfl, rfl⟩

theorem legal_default : Config.commands.legal = true := by decide

theorem given_accepting (s : State) (ev : List Event) (h : s.accepting) : (given s ev).accepting := h

theorem given_answers (s : State) (acts : List Action) (ev : List Event) (h : carries acts ev = true) :
    (given s ev).answers acts ev Env.reset := ⟨rfl, h⟩

/-- READY with a request at the host port. -/
def offered (s : State) (r : Request) : State := { s with host := [r] }

/-- The operand fields and the buffer at their largest and smallest values. -/
theorem witness_DecodeOfEncode : Config.commands.legal = true ∧ (Instr.loadPartialImage 0xFFFF 0 0xFFFF 0 []).wellFormed Config.commands = true ∧
    (Instr.writeData 0xFF).wellFormed Config.commands = true ∧ (Instr.swReset (some [])).wellFormed Config.commands = true ∧
    (Instr.init { tp with w := 2040#16, h := 511#16, entry := 3#8 }).wellFormed Config.commands = true := by decide

theorem witness_EncodeOfDecode :
    decode Config.commands (.request { desc := 0xFFFF_0000_FFFF_0000_000A#80, buf := [] }) = .ok (.loadPartialImage 0 0xFFFF 0 0xFFFF []) ∧
    decode Config.commands (.transfer { opcode := 0xFF#8, payload := some [] }) = .ok (.nop (some [])) := by decide

/-- Legal: a RAW byte at 255 and a catalog opcode at 0xFF, no buffer. -/
theorem witness_RequestDecodesUnlessIllegal : LegalRequest Config.commands 0x00FF_000B#80 [] := by
  constructor <;> decide

/-- Every item can fail alone: OP, RSV, an unused operand, an unexpected buffer, an opcode, a profile. -/
theorem witness_RequestDecodesUnlessIllegal_refused :
    ¬LegalRequest Config.commands 0x000E#80 [] ∧ ¬LegalRequest Config.commands 0x0105#80 [] ∧ ¬LegalRequest Config.commands 0x0001_0005#80 [] ∧
    ¬LegalRequest Config.commands 0x0100_000C#80 [] ∧ ¬LegalRequest Config.commands 0x0005#80 [0#8] ∧ ¬LegalRequest Config.commands 0x000E_000B#80 [] ∧
    ¬LegalRequest Config.commands 0x0000#80 [] :=
  ⟨fun h => absurd h.item1 (by decide), fun h => absurd h.item2 (by decide), fun h => absurd h.item3 (by decide),
    fun h => absurd h.item3Raw (by decide), fun h => absurd h.item4 (by decide), fun h => absurd h.item5 (by decide),
    fun h => absurd h.item6 (by decide)⟩

/-- The default table, and one with another GK opcode and CATALOG. -/
theorem witness_OpcodesAreTheSources : Config.commands.legal = true ∧ otherTable.legal = true := by decide

theorem witness_Split9Bytes : (511 : Nat) < 512 ∧ split9 511 = [0xFF#8, 0x01#8] ∧ split9 256 = [0x00#8, 0x01#8] ∧
    split9 512 = [0x00#8, 0x00#8] := by decide

theorem witness_PackersLayOutPayloads : packXWindow 255 0 = [0xFF#8, 0x00#8] ∧ packXCounter 255 = [0xFF#8] := by decide

theorem witness_StepRunsDecodedRequest : (offered ready { desc := 0x05#80, buf := [] }).seq = .idle ∧
    (offered ready { desc := 0x05#80, buf := [] }).host = [{ desc := 0x05#80, buf := [] }] ∧
    decodeRequest Config.commands { desc := 0x05#80, buf := [] } = .ok .powerOn := by decide

theorem witness_NoRequestNoStep : State.reset.seq = .idle ∧ State.reset.host = [] := by decide

/-- UPDATE_FULL before its MasterActivation, seven port actions in. -/
theorem witness_StepRunsNextCommand :
    nextCommand { ready with seq := .exec { req := { desc := 0x06#80, buf := [] }, upc := 8, failing := none } } =
      some (.masterActivation none) := by decide

theorem witness_RawRequestStandsBeforeItsCommand :
    decodeTransfer Config.commands { opcode := 0x10#8, payload := none } = .ok (.deepSleepMode none) ∧
    decodeTransfer Config.commands { opcode := 0x24#8, payload := some [1#8] } = .ok (.writeRam (some [1#8])) := by decide

theorem witness_StepFollowsSequence :
    (Running.operation { req := { desc := 0x06#80, buf := [] }, upc := 8, failing := none } Config.commands) =
      .ok .updateFull := by decide

theorem witness_RefusalChangesOnlyRefused : decodeRequest Config.commands { desc := 0x0E#80, buf := [] } = .error .reservedOp ∧
    (offered State.reset { desc := 0x05#80, buf := [] }).life = .uninit ∧
    (∀ p, decodeRequest Config.commands { desc := 0x05#80, buf := [] } ≠ .ok (.init p)) :=
  ⟨by decide, rfl, fun p h => by cases h⟩

theorem witness_NoMoveOutOfTurn : encode Config.commands .powerOn = .request { desc := 0x05#80, buf := [] } ∧
    encode Config.commands (.nop none) = .transfer { opcode := 0xFF#8, payload := none } ∧ ready.seq = .idle ∧
    (executing { desc := 0x06#80, buf := [] }).seq =
      .exec { req := { desc := 0x06#80, buf := [] }, upc := 0, failing := none } ∧
    Running.failing { req := { desc := 0x06#80, buf := [] }, upc := 3, failing := some 7 } = some 7 := by decide

theorem witness_InitCompletes : tp.legal = true ∧ (given State.reset initEv).params.commands.legal = true ∧
    (given State.reset initEv).seq = .idle ∧
    (given State.reset initEv).answers
      ([.pin .rst false false, .pin .cs true false, .pin .dc true false,
        .delay State.reset.params.tRstLow, .pin .rst true false, .delay State.reset.params.tRstHigh]
        ++ cmdString (ready.opc .driverOutputControl) (split9 (tp.h.toNat - 1) ++ [0x00#8])
        ++ cmdString (ready.opc .boosterSoftStartControl) [tp.ss0, tp.ss1, tp.ss2]
        ++ cmdString (ready.opc .writeVcomRegister) [tp.vcom]
        ++ cmdString (ready.opc .setDummyLinePeriod) [tp.dummy]
        ++ cmdString (ready.opc .setGateLineWidth) [tp.gate]
        ++ cmdString (ready.opc .dataEntryModeSetting) [tp.entry]) initEv Env.reset :=
  ⟨by decide, legal_default, rfl, given_answers _ _ _ (by decide)⟩

/-- The largest admitted operands, on 200 x 200 (V-SDA-9). -/
def widestEv : List Event :=
  strEv 0x44#8 [0x19#8, 0x19#8] ++ strEv 0x45#8 [0xC8#8, 0x00#8, 0xC8#8, 0x00#8] ++ strEv 0x4E#8 [0x19#8]
    ++ strEv 0x4F#8 [0xC8#8, 0x00#8]

theorem witness_SetDisplayAreaCompletes : (given ready widestEv).accepting ∧
    (given ready widestEv).params.commands.legal = true ∧ legalSize ready.w ready.h ∧
    (25#16 : Half).toNat ≤ ready.bw ∧ (200#16 : Half).toNat ≤ ready.h.toNat ∧
    (given ready widestEv).answers
      (cmdString (ready.opc .setRamXAddressStartEndPosition) [lowByte 25#16, lowByte 25#16]
        ++ cmdString (ready.opc .setRamYAddressStartEndPosition) (split9 200 ++ split9 200)
        ++ cmdString (ready.opc .setRamXAddressCounter) [lowByte 25#16]
        ++ cmdString (ready.opc .setRamYAddressCounter) (split9 200)) widestEv Env.reset :=
  ⟨⟨rfl, rfl⟩, legal_default, ⟨by decide, by decide, by decide, by decide⟩, by decide, by decide, given_answers _ _ _ (by decide)⟩

/-- Each bound at the last value within it and the first one out of it; STATUS is OK, not a BoundsError. -/
theorem witness_SetDisplayAreaBounds : ready.accepting ∧ ready.status ≠ .boundsError ∧
    25 ≤ byteWidth ready.w.toNat ∧ ¬26 ≤ byteWidth ready.w.toNat ∧ 200 ≤ ready.h.toNat ∧ ¬201 ≤ ready.h.toNat :=
  ⟨⟨rfl, rfl⟩, by decide, by decide, by decide, by decide, by decide⟩

theorem witness_LutLoadsComplete : ready.accepting ∧ ready.params.commands.legal = true ∧ ready.lutF.length = 30 ∧ ready.lutP.length = 30 ∧
    (given ready (strEv 0x32#8 (ramp 0))).answers (cmdString (ready.opc .writeLutRegister) ready.lutF)
      (strEv 0x32#8 (ramp 0)) Env.reset ∧
    (given ready (strEv 0x32#8 (ramp 0x80))).answers (cmdString (ready.opc .writeLutRegister) ready.lutP)
      (strEv 0x32#8 (ramp 0x80)) Env.reset :=
  ⟨ready_accepting, legal_default, rfl, rfl, given_answers _ _ _ (by decide), given_answers _ _ _ (by decide)⟩

theorem witness_LoadImageCompletes : ready.accepting ∧ ready.params.commands.legal = true ∧
    (given ready (busy1 ++ busy0 ++ strEv 0x24#8 [])).answers ([.poll] ++ cmdString (ready.opc .writeRam) [])
      (busy1 ++ busy0 ++ strEv 0x24#8 []) Env.reset ∧
    (given ready (busy0 ++ strEv 0x24#8 [0xAA#8])).answers ([.poll] ++ cmdString (ready.opc .writeRam) [0xAA#8])
      (busy0 ++ strEv 0x24#8 [0xAA#8]) Env.reset :=
  ⟨ready_accepting, legal_default, given_answers _ _ _ (by decide), given_answers _ _ _ (by decide)⟩

theorem witness_LoadImagePollsLowFirst : ready.seq = .idle ∧
    busy1 ++ busy0 ++ strEv 0x24#8 [] = (busy1 ++ busy0) ++ .pin .cs false .ok :: (strEv 0x24#8 []).tail ∧
    (∀ a, Event.pin .cs false .ok ≠ .poll a) := ⟨rfl, by decide, fun _ h => by cases h⟩

/-- The last row that fits: x_end = 25 = BW, y_start = 200 = H, y_height = y_start + 1. -/
theorem witness_LoadPartialImageCompletes : ready.accepting ∧ ready.params.commands.legal = true ∧
    [0x55#8].length = (1#16 : Half).toNat * (1#16 : Half).toNat ∧ 1 ≤ 0 + 1 ∧ 25 + (1 - 1) ≤ ready.bw ∧
    (0#16 : Half).toNat ≤ ready.h.toNat ∧ legalSize ready.w ready.h ∧
    (given ready (strEv 0x44#8 [0x19#8, 0x19#8] ++ strEv 0x45#8 [0#8, 0#8, 0#8, 0#8] ++ strEv 0x4E#8 [0x19#8]
        ++ strEv 0x4F#8 [0#8, 0#8] ++ busy0 ++ strEv 0x24#8 [0x55#8])).answers
      (cmdString (ready.opc .setRamXAddressStartEndPosition) [BitVec.ofNat 8 25, BitVec.ofNat 8 (25 + (1 - 1))]
        ++ cmdString (ready.opc .setRamYAddressStartEndPosition) (split9 0 ++ split9 (0 - (1 - 1)))
        ++ cmdString (ready.opc .setRamXAddressCounter) [BitVec.ofNat 8 25]
        ++ cmdString (ready.opc .setRamYAddressCounter) (split9 0) ++ [.poll] ++ cmdString (ready.opc .writeRam) [0x55#8])
      (strEv 0x44#8 [0x19#8, 0x19#8] ++ strEv 0x45#8 [0#8, 0#8, 0#8, 0#8] ++ strEv 0x4E#8 [0x19#8]
        ++ strEv 0x4F#8 [0#8, 0#8] ++ busy0 ++ strEv 0x24#8 [0x55#8]) Env.reset :=
  ⟨ready_accepting, legal_default, rfl, by decide, by decide, by decide,
    ⟨by decide, by decide, by decide, by decide⟩, given_answers _ _ _ (by decide)⟩

/-- Each clause just past its bound: a length one off; no width; no height; y_end = -1; x_end = BW + 1;
y_start = H + 1. -/
theorem witness_LoadPartialImageChecks : ready.accepting ∧
    [0#8].length ≠ (2#16 : Half).toNat * (1#16 : Half).toNat ∧ ([] : List Byte).length = 0 * 1 ∧
    ([] : List Byte).length = 1 * 0 ∧ [0#8, 0#8].length = 1 * 2 ∧ 0 + 1 < 2 ∧ [0#8].length = 1 * 1 ∧
    ready.bw < 26 + (1 - 1) ∧ ready.h.toNat < 201 :=
  ⟨⟨rfl, rfl⟩, by decide, rfl, rfl, rfl, by decide, rfl, by decide, by decide⟩

theorem witness_PowerOnCompletes : ready.accepting ∧ ready.params.commands.legal = true ∧
    (given ready (strEv 0x22#8 [0xC0#8] ++ cmdEv 0x20#8 ++ busy0)).answers
      (cmdString (ready.opc .displayUpdateControl2) [0xC0#8] ++ cmd (ready.opc .masterActivation) ++ [.poll])
      (strEv 0x22#8 [0xC0#8] ++ cmdEv 0x20#8 ++ busy0) Env.reset :=
  ⟨ready_accepting, legal_default, given_answers _ _ _ (by decide)⟩

theorem witness_UpdateFullCompletes : ready.accepting ∧ ready.params.commands.legal = true ∧
    (given ready (strEv 0x22#8 [0xC7#8] ++ cmdEv 0x20#8 ++ cmdEv 0xFF#8)).answers
      (cmdString (ready.opc .displayUpdateControl2) [0xC7#8] ++ cmd (ready.opc .masterActivation) ++ cmd (ready.opc .nop))
      (strEv 0x22#8 [0xC7#8] ++ cmdEv 0x20#8 ++ cmdEv 0xFF#8) Env.reset :=
  ⟨ready_accepting, legal_default, given_answers _ _ _ (by decide)⟩

theorem witness_UpdatePartialCompletes : ready.accepting ∧ ready.params.commands.legal = true ∧
    (given ready (strEv 0x22#8 [0x04#8] ++ cmdEv 0x20#8 ++ cmdEv 0xFF#8)).answers
      (cmdString (ready.opc .displayUpdateControl2) [0x04#8] ++ cmd (ready.opc .masterActivation) ++ cmd (ready.opc .nop))
      (strEv 0x22#8 [0x04#8] ++ cmdEv 0x20#8 ++ cmdEv 0xFF#8) Env.reset :=
  ⟨ready_accepting, legal_default, given_answers _ _ _ (by decide)⟩

theorem witness_PowerOffCompletes : ready.accepting ∧ ready.params.commands.legal = true ∧
    (given ready (strEv 0x22#8 [0xC3#8] ++ cmdEv 0x20#8)).answers
      (cmdString (ready.opc .displayUpdateControl2) [0xC3#8] ++ cmd (ready.opc .masterActivation))
      (strEv 0x22#8 [0xC3#8] ++ cmdEv 0x20#8) Env.reset :=
  ⟨ready_accepting, legal_default, given_answers _ _ _ (by decide)⟩

set_option maxRecDepth 4000 in
theorem witness_ShowFullScreenImageCompletes : readyOne.accepting ∧ readyOne.params.commands.legal = true ∧
    legalSize readyOne.w readyOne.h ∧
    readyOne.lutF.length = 30 ∧ [0xAB#8].length = readyOne.bw * readyOne.h.toNat ∧
    (given readyOne showOneEv).answers
      (cmdString (ready.opc .writeLutRegister) readyOne.lutF
        ++ cmdString (ready.opc .displayUpdateControl2) [0xC0#8] ++ cmd (ready.opc .masterActivation) ++ [.poll]
        ++ cmdString (ready.opc .setRamXAddressStartEndPosition) [0x00#8, BitVec.ofNat 8 (readyOne.bw - 1)]
        ++ cmdString (ready.opc .setRamYAddressStartEndPosition) (split9 (readyOne.h.toNat - 1) ++ [0x00#8, 0x00#8])
        ++ cmdString (ready.opc .setRamXAddressCounter) [0x00#8]
        ++ cmdString (ready.opc .setRamYAddressCounter) (split9 (readyOne.h.toNat - 1))
        ++ [.poll] ++ cmdString (ready.opc .writeRam) [0xAB#8]
        ++ cmdString (ready.opc .displayUpdateControl2) [0xC7#8] ++ cmd (ready.opc .masterActivation)
        ++ cmd (ready.opc .nop)
        ++ cmdString (ready.opc .displayUpdateControl2) [0xC3#8] ++ cmd (ready.opc .masterActivation)) showOneEv Env.reset :=
  ⟨⟨rfl, rfl⟩, legal_default, ⟨by decide, by decide, by decide, by decide⟩, rfl, rfl, given_answers _ _ _ (by decide)⟩

theorem witness_ShowFullScreenImageLength : readyOne.accepting ∧ readyOne.status ≠ .lengthError ∧
    [0#8].length = byteWidth readyOne.w.toNat * readyOne.h.toNat ∧
    [0#8, 0#8].length ≠ byteWidth readyOne.w.toNat * readyOne.h.toNat :=
  ⟨⟨rfl, rfl⟩, by decide, by decide, by decide⟩

theorem witness_WriteCmdCompletes : 0xFF#8 ∈ Config.commands.catalog ∧ 0x01#8 ∈ Config.commands.catalog ∧
    (given ready (cmdEv 0xFF#8)).answers (cmd 0xFF#8) (cmdEv 0xFF#8) Env.reset :=
  ⟨by decide, by decide, given_answers _ _ _ (by decide)⟩

theorem witness_WriteDataCompletes :
    (given ready ([.pin .cs false .ok, .pin .dc true .ok] ++ tx 0x00#8 ++ [.pin .cs true .ok])).answers (data 0x00#8)
      ([.pin .cs false .ok, .pin .dc true .ok] ++ tx 0x00#8 ++ [.pin .cs true .ok]) Env.reset :=
  given_answers _ _ _ (by decide)

theorem witness_WriteCmdStringCompletes : 0x10#8 ∈ Config.commands.catalog ∧
    (given ready (strEv 0x10#8 [])).answers (cmdString 0x10#8 []) (strEv 0x10#8 []) Env.reset :=
  ⟨by decide, given_answers _ _ _ (by decide)⟩

theorem witness_CommandsProgramShadow : ready.params.commands.legal = true ∧ (511 : Nat) < 512 ∧ (ramp 0).length = 30 ∧
    ready.opc .nop ≠ ready.opc .setRamXAddressStartEndPosition ∧ ready.opc .nop ≠ ready.opc .setRamYAddressStartEndPosition ∧
    ready.opc .nop ≠ ready.opc .setRamXAddressCounter ∧ ready.opc .nop ≠ ready.opc .setRamYAddressCounter ∧
    ready.opc .nop ≠ ready.opc .writeLutRegister ∧ ready.opc .nop ≠ ready.opc .displayUpdateControl2 := by decide

theorem witness_BareCommandsComplete : Command.masterActivation.instr none = .masterActivation none ∧
    ready.opc .masterActivation = 0x20#8 ∧
    (given (executing { desc := 0x06#80, buf := [] }) (cmdEv 0x20#8)).answers
      [.pin .cs false true, .pin .dc false true, .send 0x20#8, .read, .pin .cs true false] (cmdEv 0x20#8) Env.reset :=
  ⟨rfl, rfl, given_answers _ _ _ (by decide)⟩

theorem witness_PayloadCommandsComplete : Command.writeRam.instr (some [1#8]) = .writeRam (some [1#8]) ∧
    ready.opc .writeRam = 0x24#8 ∧
    (given (executing { desc := 0x06#80, buf := [] }) (strEv 0x24#8 [1#8])).answers
      ([.pin .cs false true, .pin .dc false true, .send 0x24#8, .read, .pin .dc true true]
        ++ [1#8].flatMap (fun b => [.send b, .read]) ++ [.pin .cs true false]) (strEv 0x24#8 [1#8]) Env.reset :=
  ⟨rfl, rfl, given_answers _ _ _ (by decide)⟩

theorem witness_ActivationMovesPhase : (executing { desc := 0x05#80, buf := [] }).seq =
    .exec { req := { desc := 0x05#80, buf := [] }, upc := 0, failing := none } := rfl

/-- V-PRIM-10: the READ of a command fails, and the restoring CS event too. -/
def brokenEv : List Event :=
  [.pin .cs false .ok, .pin .dc false .ok, .send 0xFF#8 .ok, .read (.err 7), .pin .cs true (.err 9)]

theorem witness_TransportErrorEndsRequest :
    encode Config.commands (.writeCmd 0xFF) = .request { desc := 0x00FF_000B#80, buf := [] } ∧
    (∀ p, Instr.writeCmd 0xFF ≠ .init p) ∧ (Instr.writeCmd 0xFF).wellFormed Config.commands = true ∧
    (given ready brokenEv).accepting ∧ checkOf (.writeCmd 0xFF) (given ready brokenEv) = none ∧
    (given ready brokenEv).env = Env.giving brokenEv Env.reset ∧
    breaks 7 (sequenceOf (.writeCmd 0xFF) (given ready brokenEv)) brokenEv = true ∧ ready.csL ≠ .low :=
  ⟨by decide, fun _ h => (by cases h), by decide, ⟨rfl, rfl⟩, rfl, rfl, by decide, by decide⟩

theorem witness_FailedInitLeavesUninit : tp.legal = true ∧
    breaks 1 (initActions tp { given State.reset [.pin .rst false (.err 1)] with h := tp.h })
      [.pin .rst false (.err 1)] = true ∧
    breaks 2 (initActions tp { given State.reset (initEv.take 8) with h := tp.h })
      (initEv.take 8 ++ [.send 0x01#8 (.err 2), .pin .cs true .ok]) = true := by decide

/-- A transfer that completes, and one that fails. -/
theorem witness_TransfersEndWithCsHigh : encode Config.commands (.nop none) = .transfer { opcode := 0xFF#8, payload := none } ∧
    (∃ u, exec (.nop none) (given (executing { desc := 0x00FF_000B#80, buf := [] }) (cmdEv 0xFF#8)) = .next u ∧
      u.seq = .exec { req := { desc := 0x00FF_000B#80, buf := [] }, upc := 5, failing := none }) ∧
    (∃ u, exec (.nop none) (given (executing { desc := 0x00FF_000B#80, buf := [] }) brokenEv) = .next u ∧
      u.seq = .idle) := ⟨by decide, ⟨_, rfl, by decide⟩, ⟨_, rfl, by decide⟩⟩

theorem witness_UnansweredRequestStaysExecuting : (given ready ((cmdEv 0xFF#8).take 3)).accepting ∧
    checkOf (.writeCmd 0xFF) (given ready ((cmdEv 0xFF#8).take 3)) = none ∧
    stalls Env.reset (sequenceOf (.writeCmd 0xFF) ready) ((cmdEv 0xFF#8).take 3) 3 = true :=
  ⟨⟨rfl, rfl⟩, rfl, by decide⟩

theorem witness_LoadImageHangsWhileBusy : ({ ready with env := { Env.reset with polls := [] } } : State).accepting ∧
    (given ready (busy1 ++ busy1)).env.polls = List.replicate 2 (.ok true) := ⟨⟨rfl, rfl⟩, rfl⟩

/-- WRITE_CMD whose opcode's SEND failed, the restoring CS event not yet answered. -/
def restoringState : State :=
  { ready with
    csL := .low, dcL := .low
    seq := .exec { req := { desc := 0x00FF_000B#80, buf := [] }, upc := 2, failing := some 7 } }

theorem witness_RestoreCsEndsWithFirstError :
    Running.operation { req := { desc := 0x00FF_000B#80, buf := [] }, upc := 2, failing := some 7 } Config.commands =
      .ok (.writeCmd 0xFF) ∧
    (given restoringState [.pin .cs true (.err 9)]).env.pins = [.err 9] := by decide

/-- The invariant in the middle of WRITE_CMD, CS and DC low, before its READ. -/
theorem witness_StepKeepsInvariant :
    ({ ready with csL := .low, dcL := .low,
                  seq := .exec { req := { desc := 0x00FF_000B#80, buf := [] }, upc := 3, failing := none } } : State).Inv where
  lutF := rfl
  lutP := rfl
  holdLow := by decide
  holdHigh := by decide
  commands := by decide
  size := fun _ => ⟨by decide, by decide, by decide, by decide⟩
  idle := fun h => by cases h
  exec := fun r h => by
    cases h
    exact ⟨rfl, by decide, fun _ => by decide⟩

theorem witness_OnlyInitWritesOwnedRegisters : (∀ p, Instr.writeCmd 0xFF ≠ .init p) ∧
    ∃ t, exec (.writeCmd 0xFF) (given ready (cmdEv 0xFF#8)) = .next t := ⟨fun _ h => (by cases h), ⟨_, rfl⟩⟩

theorem witness_InitWritesProfileAtAcceptance : tp.legal = true ∧ State.reset.seq = .idle := by decide

/-- A step after which the request still executes. -/
theorem witness_StatusWrittenAtEndOnly : ∃ t, step (offered ready { desc := 0x05#80, buf := [] }) = .next t ∧
    t.seq = .exec { req := { desc := 0x05#80, buf := [] }, upc := 0, failing := none } := ⟨_, rfl, rfl⟩

theorem witness_OnlySomeOperationsTouchRstAndBusy :
    ∃ t, exec .powerOff (given ready (strEv 0x22#8 [0xC3#8] ++ cmdEv 0x20#8)) = .next t := ⟨_, rfl⟩

/-- The table, a full update, the table again. -/
theorem witness_LutLoadsAreIdempotent : ∃ t u v,
    (∀ i ∈ [Instr.writeCmd 0xFF], ∀ p, i ≠ .init p) ∧
    exec .loadFullLut (given ready (strEv 0x32#8 (ramp 0) ++ cmdEv 0xFF#8 ++ strEv 0x32#8 (ramp 0))) = .next t ∧
    t.seq = .idle ∧ t.status = .ok ∧ execAll [.writeCmd 0xFF] t = some u ∧ u.seq = .idle ∧
    exec .loadFullLut u = .next v ∧ v.seq = .idle ∧ v.status = .ok :=
  ⟨_, _, _, fun i h p e => (by rw [List.mem_singleton.mp h] at e; cases e), rfl, rfl, rfl, rfl, rfl, rfl, rfl, rfl⟩

theorem witness_SuccessfulShowHasHazard : readyOne.accepting ∧ readyOne.params.commands.legal = true ∧ readyOne.lutF.length = 30 ∧
    ∃ t, exec (.showFullScreenImage [0xAB#8]) (given readyOne showOneEv) = .next t ∧ t.seq = .idle ∧ t.status = .ok :=
  ⟨⟨rfl, rfl⟩, legal_default, rfl, _, rfl, rfl, rfl⟩

/-- A step that makes the hazard, from a state without it. -/
theorem witness_HazSrcImpliesHazStrict : ready.params.commands.legal = true ∧
    (ready.ghost.hazSrc = true → ready.ghost.hazStrict = true) ∧
    ∃ t, step (offered (given { ready with ghost := { ready.ghost with updWindow := true } } (cmdEv 0x20#8))
      { desc := 0x0020_000B#80, buf := [] }) = .next t ∧ t.ghost.hazSrc = true := ⟨legal_default, fun h => (by cases h), _, rfl, rfl⟩

theorem witness_OtherOperationsKeepPhase :
    ∃ t, exec (.writeCmd 0x20) (given ready (cmdEv 0x20#8)) = .next t ∧ t.status = .ok := ⟨_, rfl, rfl⟩

/-- Two states that differ in everything the engine only writes. -/
theorem witness_EngineIgnoresWhatItOnlyWrites :
    (offered ready { desc := 0x05#80, buf := [] }).unobserved =
      (offered { ready with csL := .unknown, dcL := .low, rstL := .low, status := .lengthError, refused := true,
                            ghost := Ghost.reset, trace := busy1 } { desc := 0x05#80, buf := [] }).unobserved ∧
    ∃ t, step (offered ready { desc := 0x05#80, buf := [] }) = .next t := ⟨rfl, _, rfl⟩

/-- One request that ends at once, and one that waits for the answers to come. -/
theorem witness_LateAnswersChangeNothing :
    (∃ t, exec (.setDisplayArea 26 0 0 0) ready = .next t ∧ t.seq = .idle) ∧
    ∃ t, exec .powerOff (given ready ((cmdEv 0x22#8).take 3)) = .next t ∧
      t.seq = .exec { req := { desc := 0x08#80, buf := [] }, upc := 3, failing := none } :=
  ⟨⟨_, rfl, rfl⟩, _, rfl, rfl⟩

theorem witness_PresetsDifferWhereTheSpecSays :
    presetsAdmissible tp { tp with ss0 := 0#8, vcom := 0#8, dummy := 0#8, lutF := ramp 1, lutP := ramp 0x40 } = true := by
  decide

end Sys2Proof.Tests
end

section
/-! PROOFS. The statements about the scope of the engine (spec/00_scope.md): its small functions, what a step does while
no request executes, which instructions have no move, which pins, delays and BUSY samples an instruction can cause, and
the request that waits for an answer. Before each stand the facts it needs. -/

namespace Sys2Proof.Machine

/-! ### Derived constants and the 9-bit split (R15, R16) -/

/-- Settles O6, from the bytes' remainders and the reader's law `join9_of_split9`. -/
theorem split9Bytes : Obligations.Split9Bytes := by
  intro v
  refine ⟨_, _, rfl, ?_, ?_, fun hv => ⟨?_, ?_⟩⟩
  · exact BitVec.toNat_ofNat v 8
  · simp only [Config.val9Bits, BitVec.toNat_ofNat]
    omega
  · simp only [Config.val9Bits, BitVec.toNat_ofNat]
    omega
  · obtain ⟨lo, hi, hsplit, hjoin⟩ := join9_of_split9 (v := v) hv
    obtain ⟨rfl, rfl⟩ : _ = lo ∧ _ = hi := by simpa [split9] using hsplit
    rw [hjoin, BitVec.toNat_ofNat]
    exact Nat.mod_eq_of_lt hv

/-- Settles O7: rounding up is the least number of bytes that holds the bits. -/
theorem byteWidthIsCeil : Obligations.ByteWidthIsCeil := by
  refine ⟨fun w n => ?_, fun s => rfl⟩
  unfold byteWidth
  omega

/-! ### Reset, and a step while no request executes (R7, R8, R32) -/

/-- Settles O10: each field of the reset state is its defining value. -/
theorem resetValues : Obligations.ResetValues := by
  unfold Obligations.ResetValues
  decide

/-- While no request executes a step takes the request presented (R8, R32). -/
theorem step_of_idle_cons {s : State} {r : Request} {rest : List Request} (hq : s.seq = .idle)
    (hh : s.host = r :: rest) : step s = takeRequest r { s with host := rest } := by
  simp only [step, hq, hh]

/-- With no request presented and none executing a step changes nothing (R7). -/
theorem step_of_idle_nil {s : State} (hq : s.seq = .idle) (hh : s.host = []) : step s = .next s := by
  simp only [step, hq, hh]

/-- A request that decodes is the execution of its operation (R104). -/
theorem takeRequest_of_decodes {s : State} {r : Request} {i : Instr} (hd : decodeRequest s.params.commands r = .ok i) :
    takeRequest r s = exec i s := by
  simp only [takeRequest, hd]

/-- Settles O11: the step takes the request, and the request decodes. -/
theorem stepRunsDecodedRequest : Obligations.StepRunsDecodedRequest := by
  intro s r rest i hq hh hd
  rw [step_of_idle_cons hq hh]
  exact takeRequest_of_decodes (s := { s with host := rest }) hd

/-- Settles O12: nothing is presented to the step. -/
theorem noRequestNoStep : Obligations.NoRequestNoStep := fun _ hq hh => step_of_idle_nil hq hh

/-! ### Instructions given out of turn (R8, R330) -/

/-- INIT has no move while a request executes. -/
theorem execInit_of_exec {s : State} {r : Running} (p : Profile) (hq : s.seq = .exec r) :
    execInit p s = .fault .requestWhileExecuting := by
  simp only [execInit, hq]

/-- A host operation other than INIT has no move while a request executes. -/
theorem hostOperation_of_exec {s : State} {r : Running} (i : Instr) (check : State → Option Status)
    (acts : State → List Action) (hq : s.seq = .exec r) :
    hostOperation i check acts s = .fault .requestWhileExecuting := by
  simp only [hostOperation, hq]

/-- A controller command has no move while no request executes. -/
theorem commandTransfer_of_idle {s : State} (k : Command) (p : Payload) (hq : s.seq = .idle) :
    commandTransfer k p s = .fault .noRequestExecuting := by
  simp only [commandTransfer, hq]

/-- A controller command has no move while an error waits for RestoreCS. -/
theorem commandTransfer_of_failing {s : State} {r : Running} {x : ErrVal} (k : Command) (p : Payload)
    (hq : s.seq = .exec r) (hf : r.failing = some x) : commandTransfer k p s = .fault .errorPathOpen := by
  simp only [commandTransfer, hq, hf]

/-- Settles O17, by which shared operation the instruction is. -/
theorem noMoveOutOfTurn : Obligations.NoMoveOutOfTurn := by
  refine ⟨fun i q r s henc hq => ?_, fun i t s henc hq => ?_, fun i t r x s henc hq hf => ?_⟩
  · by_cases hi : ∃ p, i = .init p
    · obtain ⟨p, rfl⟩ := hi
      exact execInit_of_exec p hq
    · rw [exec_eq_hostOperation henc (not_exists.mp hi)]
      exact hostOperation_of_exec i _ _ hq
  · obtain ⟨k, rfl, -⟩ := instr_of_encode henc
    rw [exec_eq_commandTransfer, commandTransfer_of_idle k _ hq]
  · obtain ⟨k, rfl, -⟩ := instr_of_encode henc
    rw [exec_eq_commandTransfer, commandTransfer_of_failing k _ hq hf]

/-! ### The events of a sequence of port actions (R13, R273) -/

/-- The event is a call of the action, whatever its answer: it performs, repeats or fails it. -/
def Action.CalledBy (a : Action) (e : Event) : Prop :=
  a.performedBy e = true ∨ a.retriedBy e = true ∨ ∃ x, a.failedBy x e = true

/-- The event is a call of one of the actions, or the RestoreCS of R273. -/
def Event.CallsOneOf (acts : List Action) (e : Event) : Prop :=
  (∃ a ∈ acts, a.CalledBy e) ∨ ∃ x, e = .pin .cs true x

theorem callsOneOf_head {a : Action} {as : List Action} {e : Event} (h : a.CalledBy e) : e.CallsOneOf (a :: as) :=
  .inl ⟨a, List.mem_cons_self, h⟩

theorem Event.CallsOneOf.cons {as : List Action} {e : Event} (h : e.CallsOneOf as) (a : Action) :
    e.CallsOneOf (a :: as) := by
  obtain ⟨b, hb, he⟩ | hcs := h
  · exact .inl ⟨b, List.mem_cons_of_mem a hb, he⟩
  · exact .inr hcs

/-- `t` is `s` with more events in its trace, each a call of one of the actions or RestoreCS. -/
def TraceGrowsBy (acts : List Action) (s t : State) : Prop :=
  ∃ ev, t.trace = s.trace ++ ev ∧ ∀ e ∈ ev, e.CallsOneOf acts

theorem traceGrowsBy_of_eq {acts : List Action} {s t : State} (h : t.trace = s.trace) : TraceGrowsBy acts s t :=
  ⟨[], by simp [h], by simp⟩

/-- One event, and then what follows it. -/
theorem TraceGrowsBy.cons {acts : List Action} {s t u : State} {e : Event} (he : e.CallsOneOf acts)
    (hu : u.trace = s.trace ++ [e]) (h : TraceGrowsBy acts u t) : TraceGrowsBy acts s t := by
  obtain ⟨ev, ht, hev⟩ := h
  exact ⟨e :: ev, by simp [ht, hu], List.forall_mem_cons.mpr ⟨he, hev⟩⟩

theorem TraceGrowsBy.cons_action {as : List Action} {s t : State} (h : TraceGrowsBy as s t) (a : Action) :
    TraceGrowsBy (a :: as) s t := by
  obtain ⟨ev, ht, hev⟩ := h
  exact ⟨ev, ht, fun e he => (hev e he).cons a⟩

/-- What follows a failed action is RestoreCS or nothing (R273, R308). -/
theorem afterFailure_traceGrowsBy (acts : List Action) (a : Action) (x : ErrVal) (s : State) :
    TraceGrowsBy acts s (afterFailure a x s).state := by
  unfold afterFailure
  split
  · unfold restoreCS
    split
    · exact traceGrowsBy_of_eq rfl
    · next answer rest _ =>
      exact .cons (e := .pin .cs true answer) (.inr ⟨_, rfl⟩) (record_trace _ _) (traceGrowsBy_of_eq rfl)
  · exact traceGrowsBy_of_eq rfl

/-- A sequence of port actions adds to the trace, and only its own calls and RestoreCS (R13, R273). -/
theorem runActions_traceGrowsBy (acts : List Action) (s : State) : TraceGrowsBy acts s (runActions acts s).state := by
  induction acts generalizing s with
  | nil => exact traceGrowsBy_of_eq rfl
  | cons a as ih =>
    induction hn : s.env.size using Nat.strong_induction_on generalizing s with
    | _ n ihn =>
      obtain ⟨e, env, hs, h⟩ | ⟨e, env, hs, h⟩ | ⟨e, env, x, hs, h⟩ | h := perform_answers a s.env
      · rw [runActions_performed h hs]
        exact .cons (callsOneOf_head (.inl h)) (by simp) ((ih _).cons_action a)
      · rw [runActions_retried h hs]
        have hlt : env.size < n := by rw [← hn, hs]; exact size_lt_of_retriedBy h
        exact .cons (callsOneOf_head (.inr (.inl h))) (by simp) (ihn env.size hlt _ (by simp))
      · rw [runActions_cons, perform_of_failedBy h hs]
        exact .cons (callsOneOf_head (.inr (.inr ⟨x, h⟩))) (by simp) (afterFailure_traceGrowsBy _ a x _)
      · rw [runActions_cons, perform_of_unanswered h]
        exact traceGrowsBy_of_eq rfl

/-! ### The events of an instruction -/

theorem settle_trace {finish : State → State} (hf : ∀ u, (finish u).trace = u.trace) (p : Progress) :
    (settle finish p).trace = p.state.trace := by
  cases p with
  | done u => exact hf u
  | waiting u => rfl
  | failed x u => rfl

/-- A sequence settled in any way that keeps the trace adds only its own calls and RestoreCS. -/
theorem settle_traceGrowsBy {finish : State → State} (hf : ∀ u, (finish u).trace = u.trace) (acts : List Action)
    {s u : State} (hu : u.trace = s.trace) : TraceGrowsBy acts s (settle finish (runActions acts u)) := by
  obtain ⟨ev, ht, hev⟩ := runActions_traceGrowsBy acts u
  exact ⟨ev, by rw [settle_trace hf, ht, hu], hev⟩

theorem execInit_traceGrowsBy {p : Profile} {s t : State} (h : execInit p s = .next t) :
    TraceGrowsBy (initActions p (acceptProfile p s)) s t := by
  unfold execInit at h
  split at h
  · cases h
  · split at h
    · cases h
      exact settle_traceGrowsBy completeInit_trace _ rfl
    · cases h
      exact traceGrowsBy_of_eq rfl

theorem execute_traceGrowsBy (i : Instr) (check : State → Option Status) (acts : State → List Action) (s : State) :
    TraceGrowsBy (acts s) s (execute i check acts s) := by
  unfold execute
  split
  · exact traceGrowsBy_of_eq rfl
  · exact settle_traceGrowsBy complete_trace _ rfl

theorem hostOperation_traceGrowsBy {i : Instr} {check : State → Option Status} {acts : State → List Action}
    {s t : State} (h : hostOperation i check acts s = .next t) : TraceGrowsBy (acts s) s t := by
  unfold hostOperation at h
  split at h
  · cases h
  · split at h
    · split at h
      · cases h
        exact traceGrowsBy_of_eq rfl
      · cases h
        exact execute_traceGrowsBy i check acts s
    · cases h
      exact traceGrowsBy_of_eq rfl

theorem commandTransfer_traceGrowsBy {k : Command} {p : Payload} {s t : State}
    (h : commandTransfer k p s = .next t) : TraceGrowsBy (transferActions (s.opc k) p) s t := by
  unfold commandTransfer at h
  split at h
  · cases h
  · split at h
    · cases h
    · cases h
      exact settle_traceGrowsBy (fun _ => rfl) _ rfl

/-- The sequence of a controller command is its transfer (R110). -/
theorem sequenceOf_instr (k : Command) (p : Payload) (s : State) :
    sequenceOf (k.instr p) s = transferActions (s.opc k) p := by
  cases k <;> rfl

/-- The events of an instruction are calls of its sequence, from some owned registers, or RestoreCS. -/
theorem exec_traceGrowsBy {i : Instr} {s t : State} (h : exec i s = .next t) :
    ∃ u, TraceGrowsBy (sequenceOf i u) s t := by
  cases henc : encode s.params.commands i with
  | request q =>
    by_cases hi : ∃ p, i = .init p
    · obtain ⟨p, rfl⟩ := hi
      exact ⟨acceptProfile p s, execInit_traceGrowsBy h⟩
    · rw [exec_eq_hostOperation henc (not_exists.mp hi)] at h
      exact ⟨s, hostOperation_traceGrowsBy h⟩
  | transfer t =>
    obtain ⟨k, rfl, -⟩ := instr_of_encode henc
    rw [exec_eq_commandTransfer] at h
    exact ⟨s, by rw [sequenceOf_instr]; exact commandTransfer_traceGrowsBy h⟩

/-! ### Which pins, delays and BUSY samples a sequence has (R42, R84, R155, R265) -/

/-- RST driven, or a delay, only if `reset` allows it; a sample of BUSY only if `busy` does. -/
def Action.within (reset busy : Bool) (a : Action) : Bool :=
  match a with
  | .pin p _ _ => decide (p ≠ .rst) || reset
  | .send _ => true
  | .read => true
  | .poll => busy
  | .delay _ => reset

/-- The same of an event. -/
def Event.within (reset busy : Bool) (e : Event) : Bool :=
  match e with
  | .pin p _ _ => decide (p ≠ .rst) || reset
  | .send _ _ => true
  | .read _ => true
  | .poll _ => busy
  | .delay _ => reset

theorem within_of_performedBy {reset busy : Bool} {a : Action} {e : Event} (ha : a.within reset busy = true)
    (h : a.performedBy e = true) : e.within reset busy = true := by
  cases a with
  | read => cases e <;> simp_all [Action.performedBy, Event.isByteRead, Event.within]
  | _ => simp only [Action.performedBy, decide_eq_true_eq] at h; subst h; exact ha

theorem within_of_retriedBy {reset busy : Bool} {a : Action} {e : Event} (ha : a.within reset busy = true)
    (h : a.retriedBy e = true) : e.within reset busy = true := by
  cases a <;> simp only [Action.retriedBy, decide_eq_true_eq, Bool.false_eq_true] at h <;> subst h <;> exact ha

theorem within_of_failedBy {reset busy : Bool} {a : Action} {e : Event} {x : ErrVal} (ha : a.within reset busy = true)
    (h : a.failedBy x e = true) : e.within reset busy = true := by
  cases a <;> simp only [Action.failedBy, decide_eq_true_eq, Bool.false_eq_true] at h <;> subst h <;> exact ha

/-- A call of an action is of the action's kind. -/
theorem within_of_calledBy {reset busy : Bool} {a : Action} {e : Event} (ha : a.within reset busy = true)
    (h : a.CalledBy e) : e.within reset busy = true := by
  obtain hp | hr | ⟨x, hf⟩ := h
  · exact within_of_performedBy ha hp
  · exact within_of_retriedBy ha hr
  · exact within_of_failedBy ha hf

theorem within_of_callsOneOf {reset busy : Bool} {acts : List Action} {e : Event}
    (ha : acts.all (Action.within reset busy) = true) (h : e.CallsOneOf acts) : e.within reset busy = true := by
  obtain ⟨a, hmem, he⟩ | ⟨x, rfl⟩ := h
  · exact within_of_calledBy (List.all_eq_true.mp ha a hmem) he
  · rfl

@[simp] theorem exchangeAll_within (reset busy : Bool) (bs : List Byte) :
    (exchangeAll bs).all (Action.within reset busy) = true := by
  simp [exchangeAll, exchange, Action.within]

@[simp] theorem cmd_within (reset busy : Bool) (op : Byte) : (cmd op).all (Action.within reset busy) = true := rfl

@[simp] theorem data_within (reset busy : Bool) (b : Byte) : (data b).all (Action.within reset busy) = true := rfl

@[simp] theorem cmdString_within (reset busy : Bool) (op : Byte) (bs : List Byte) :
    (cmdString op bs).all (Action.within reset busy) = true := by
  simp only [cmdString, List.all_append, exchangeAll_within]
  rfl

@[simp] theorem transferActions_within (reset busy : Bool) (op : Byte) (p : Payload) :
    (transferActions op p).all (Action.within reset busy) = true := by
  cases p with
  | none => exact cmd_within reset busy op
  | some bs => exact cmdString_within reset busy op bs

@[simp] theorem areaActions_within (reset busy : Bool) (c : CommandTable) (xs xe ys ye : Nat) :
    (areaActions c xs xe ys ye).all (Action.within reset busy) = true := by
  simp [areaActions]

@[simp] theorem activateActions_within (reset busy : Bool) (c : CommandTable) (mask : Byte) :
    (activateActions c mask).all (Action.within reset busy) = true := by
  simp [activateActions]

@[simp] theorem busyWait_within (reset : Bool) : busyWait.all (Action.within reset true) = true := rfl

/-- The operations that wait for BUSY: LOAD_IMAGE, POWER_ON and the two wrappers (R200, R210, R230, R240). -/
def samplesBusy (i : Instr) : Bool :=
  match i with
  | .loadImage _ => true
  | .powerOn => true
  | .showFullScreenImage _ => true
  | .loadPartialImage _ _ _ _ _ => true
  | _ => false

/-- The operation that pulses RST and holds it: INIT (R152, R153). -/
def pulsesReset (i : Instr) : Bool :=
  match i with
  | .init _ => true
  | _ => false

@[simp] theorem initActions_within (p : Profile) (s : State) :
    (initActions p s).all (Action.within true false) = true := by
  simp only [initActions, initConfiguration, List.all_append, cmdString_within]
  rfl

/-- No sequence but INIT's drives RST or delays, and only those that wait for BUSY sample it. -/
theorem sequenceOf_within (i : Instr) (s : State) :
    (sequenceOf i s).all (Action.within (pulsesReset i) (samplesBusy i)) = true := by
  cases i with
  | init p => exact initActions_within p s
  | loadFullLut | loadPartialLut => exact cmdString_within _ _ _ _
  | loadImage | loadPartialImage => simp [sequenceOf, samplesBusy, loadPartialImageActions, loadImageActions]
  | powerOn => simp [sequenceOf, samplesBusy, powerOnActions]
  | updateFull => simp [sequenceOf, updateFullActions]
  | updatePartial => simp [sequenceOf, updatePartialActions]
  | powerOff => exact activateActions_within _ _ _ _
  | showFullScreenImage =>
    simp [sequenceOf, samplesBusy, showFullScreenActions, loadFullLutActions, powerOnActions, loadImageActions,
      updateFullActions, powerOffActions]
  | _ => simp [sequenceOf]

theorem ne_rst_of_within {busy : Bool} {e : Event} (h : e.within false busy = true) (v : Bool) (a : PinAnswer) :
    e ≠ .pin .rst v a := by
  rintro rfl
  simp [Event.within] at h

theorem ne_delay_of_within {busy : Bool} {e : Event} (h : e.within false busy = true) (ms : Half) :
    e ≠ .delay ms := by
  rintro rfl
  simp [Event.within] at h

theorem ne_poll_of_within {reset : Bool} {e : Event} (h : e.within reset false = true) (a : PollAnswer) :
    e ≠ .poll a := by
  rintro rfl
  simp [Event.within] at h

theorem pulsesReset_eq_false {i : Instr} (hi : ∀ p, i ≠ .init p) : pulsesReset i = false := by
  cases i with
  | init p => exact absurd rfl (hi p)
  | _ => rfl

theorem samplesBusy_eq_false {i : Instr} (hload : ∀ b, i ≠ .loadImage b) (hon : i ≠ .powerOn)
    (hshow : ∀ b, i ≠ .showFullScreenImage b) (hpart : ∀ xs xw ys yh b, i ≠ .loadPartialImage xs xw ys yh b) :
    samplesBusy i = false := by
  cases i with
  | loadImage b => exact absurd rfl (hload b)
  | powerOn => exact absurd rfl hon
  | showFullScreenImage b => exact absurd rfl (hshow b)
  | loadPartialImage xs xw ys yh b => exact absurd rfl (hpart xs xw ys yh b)
  | _ => rfl

/-- Settles O52: an instruction's events are calls of its sequence or RestoreCS, and no sequence has other kinds. -/
theorem onlySomeOperationsTouchRstAndBusy : Obligations.OnlySomeOperationsTouchRstAndBusy := by
  intro i s t h
  obtain ⟨u, ev, ht, hev⟩ := exec_traceGrowsBy h
  have hwithin : ∀ e ∈ ev, e.within (pulsesReset i) (samplesBusy i) = true := fun e he =>
    within_of_callsOneOf (sequenceOf_within i u) (hev e he)
  refine ⟨ev, ht, fun hi e he => ?_, fun hload hon hshow hpart e he => ?_⟩
  · have he := hwithin e he
    rw [pulsesReset_eq_false hi] at he
    exact ⟨ne_rst_of_within he, ne_delay_of_within he⟩
  · have he := hwithin e he
    rw [samplesBusy_eq_false hload hon hshow hpart] at he
    exact ne_poll_of_within he

/-! ### A request that waits for an answer (R33, R313) -/

theorem latch_rstL_of_ne {e : Event} (h : ∀ v a, e ≠ .pin .rst v a) (s : State) : (s.latch e).rstL = s.rstL := by
  cases e with
  | pin p v a =>
    cases p with
    | rst => exact absurd rfl (h v a)
    | cs | dc => rfl
  | _ => rfl

/-- Events that do not drive RST leave its latch (R42). -/
theorem recordAll_rstL {ev : List Event} (h : ∀ e ∈ ev, ∀ v a, e ≠ .pin .rst v a) (s : State) :
    (s.recordAll ev).rstL = s.rstL := by
  induction ev generalizing s with
  | nil => rfl
  | cons e es ih =>
    obtain ⟨he, hes⟩ := List.forall_mem_cons.mp h
    rw [recordAll_cons, ih hes, record_rstL, latch_rstL_of_ne he]

/-- Settles O44: the accepted request stalls where its trace does, and none of its events drives RST. -/
theorem unansweredRequestStaysExecuting : Obligations.UnansweredRequestStaysExecuting := by
  intro i q s ev rest n henc hi hw hs hc henv hst
  have hexec : exec i s = .next ((start i s).after ev rest n) := by
    rw [exec_eq_hostOperation henc hi]
    exact hostOperation_of_stalls hw hs hc henv hst
  obtain ⟨ev', htrace, hev, -⟩ := onlySomeOperationsTouchRstAndBusy i s _ hexec
  have hsame : ev' = ev := by simpa [after_trace] using htrace.symm
  subst hsame
  have hrst : ∀ e ∈ ev', ∀ v a, e ≠ .pin .rst v a := fun e he => (hev hi e he).1
  have hreq : requestOf s.params.commands i = q := requestOf_eq henc
  refine ⟨_, hexec, ?_, ?_, after_trace _ _ _ _, after_env _ _ _ _, ?_, ?_, ?_⟩
  · simp [after_seq, hreq]
  · simp [State.after]
  · constructor <;> simp [State.after]
  · simpa [State.after] using recordAll_rstL hrst _
  · simp [State.after, start, hreq]

end Sys2Proof.Machine
end

section
/-! PROOFS. The statements about the state (spec/10_state.md): the invariant, what the engine only writes, the step of an
executing request as its sequence, late answers, who writes the owned registers, STATUS and PHASE, and the transfers of
the tables, the raw operations and the controller commands. Before each stand the facts it needs. -/

namespace Sys2Proof

/-! ### Requests decode (R103, R104) -/

/-- Whatever the reading yields is a host operation that the encoding can spell. -/
def SpellsHost (c : CommandTable) (k : Except Reject Instr) : Prop :=
  ∀ i, k = .ok i → (∃ q, encode c i = .request q) ∧ i.wellFormed c = true

section
variable {c : CommandTable}

theorem spellsHost_error (r : Reject) : SpellsHost c (.error r) := nofun

theorem spellsHost_ok {i : Instr} {q : Request} (henc : encode c i = .request q)
    (hw : i.wellFormed c = true) : SpellsHost c (.ok i) := by
  rintro _ ⟨⟩
  exact ⟨⟨q, henc⟩, hw⟩

theorem SpellsHost.ite {p : Prop} [Decidable p] {k l : Except Reject Instr} (hk : p → SpellsHost c k)
    (hl : SpellsHost c l) : SpellsHost c (if p then k else l) := by
  split
  · exact hk ‹p›
  · exact hl

theorem SpellsHost.withoutOperands {k : Except Reject Instr} (hk : SpellsHost c k) (d : Desc) :
    SpellsHost c (withoutOperands d k) := .ite (fun _ => hk) (spellsHost_error _)

theorem SpellsHost.withoutBuffer {k : Except Reject Instr} (hk : SpellsHost c k) (buf : List Byte) :
    SpellsHost c (withoutBuffer buf k) := .ite (fun _ => hk) (spellsHost_error _)

theorem SpellsHost.withByteOperand {k : Byte → Except Reject Instr} (hk : ∀ b, SpellsHost c (k b)) (d : Desc) :
    SpellsHost c (withByteOperand d k) := .ite (fun _ => hk _) (spellsHost_error _)

theorem SpellsHost.inCatalog {op : Byte} {k : Except Reject Instr}
    (hk : c.catalog.contains op = true → SpellsHost c k) : SpellsHost c (inCatalog c op k) :=
  .ite hk (spellsHost_error _)

theorem spellsHost_decodeInit (buf : List Byte) : SpellsHost c (decodeInit buf) := by
  unfold decodeInit
  split
  · exact spellsHost_error _
  · exact .ite (fun hp => spellsHost_ok rfl hp) (spellsHost_error _)

theorem spellsHost_decodeOp (d : Desc) (buf : List Byte) : SpellsHost c (decodeOp c d buf) := by
  have plain {i : Instr} {q : Request} (henc : encode c i = .request q) (hw : i.wellFormed c = true) :
      SpellsHost c (withoutOperands d (withoutBuffer buf (.ok i))) :=
    ((spellsHost_ok henc hw).withoutBuffer buf).withoutOperands d
  unfold decodeOp
  refine .ite (fun _ => (spellsHost_decodeInit buf).withoutOperands d) ?_
  refine .ite (fun _ => (spellsHost_ok rfl rfl).withoutBuffer buf) ?_
  refine .ite (fun _ => plain rfl rfl) (.ite (fun _ => plain rfl rfl) ?_)
  refine .ite (fun _ => (spellsHost_ok rfl rfl).withoutOperands d) ?_
  refine .ite (fun _ => plain rfl rfl) (.ite (fun _ => plain rfl rfl) ?_)
  refine .ite (fun _ => plain rfl rfl) (.ite (fun _ => plain rfl rfl) ?_)
  refine .ite (fun _ => (spellsHost_ok rfl rfl).withoutOperands d) ?_
  refine .ite (fun _ => spellsHost_ok rfl rfl) ?_
  refine .ite (fun _ => .withByteOperand (fun op => .withoutBuffer (.inCatalog fun hc => ?_) buf) d) ?_
  · exact spellsHost_ok (i := .writeCmd op) rfl hc
  refine .ite (fun _ => .withByteOperand (fun _ => (spellsHost_ok rfl rfl).withoutBuffer buf) d) ?_
  refine .ite (fun _ => .withByteOperand (fun op => .inCatalog fun hc => ?_) d) (spellsHost_error _)
  exact spellsHost_ok (i := .writeCmdString op buf) rfl hc

/-- What a request decodes to is a host operation that the encoding can spell (R103, R104). -/
theorem spellsHost_decodeRequest (r : Request) : SpellsHost c (decodeRequest c r) :=
  .ite (fun _ => spellsHost_error _) (.ite (fun _ => spellsHost_error _) (spellsHost_decodeOp _ _))

end

/-- INIT of a legal profile is decoded from its image (R106, R107). -/
theorem decodeInit_encodeProfile {p : Profile} (h : p.legal = true) :
    decodeInit (encodeProfile p) = .ok (.init p) := by
  have hlegal := h
  simp only [Profile.legal, Bool.and_eq_true, decide_eq_true_eq] at hlegal
  obtain ⟨⟨-, hf⟩, hp⟩ := hlegal
  simp only [decodeInit, decodeProfile_encodeProfile p hf hp, h, if_true]

/-- A host operation is decoded from its encoding (R104). -/
theorem decodeRequest_of_encode {c : CommandTable} {i : Instr} {q : Request} (henc : encode c i = .request q)
    (hw : i.wellFormed c = true) : decodeRequest c q = .ok i := by
  cases i <;> simp only [encode, reduceCtorEq, Encoded.request.injEq] at henc <;> subst henc
  case init p => simp [bareRequest, decodeRequest, decodeOp, withoutOperands, decodeInit_encodeProfile hw]
  case writeCmd op | writeCmdString op buf =>
    have hc : op ∈ c.catalog := by simpa [Instr.wellFormed] using hw
    simp [decodeRequest, decodeOp, withByteOperand, withoutBuffer, inCatalog, hc]
  all_goals simp [bareRequest, decodeRequest, decodeOp, withoutOperands, withByteOperand, withoutBuffer]

end Sys2Proof

namespace Sys2Proof.Machine

/-! ### A sequence of port actions, by its next call (R33) -/

/-- To show something of what a sequence of port actions does: its next call is performed and the rest follows, is made
again, fails, or waits. -/
theorem runActions_induction {motive : List Action → State → Progress → Prop}
    (nil : ∀ s, motive [] s (.done s))
    (performed : ∀ a as s e env p, a.performedBy e = true → s.env = Env.answer e env →
      motive as { State.record { s with env := env } e with seq := s.seq.advance } p → motive (a :: as) s p)
    (retried : ∀ a as s e env p, a.retriedBy e = true → s.env = Env.answer e env →
      motive (a :: as) (State.record { s with env := env } e) p → motive (a :: as) s p)
    (failed : ∀ a as s e env x, a.failedBy x e = true → s.env = Env.answer e env →
      motive (a :: as) s (afterFailure a x (State.record { s with env := env } e)))
    (unanswered : ∀ a as s, a.unanswered s.env = true → motive (a :: as) s (.waiting s))
    (acts : List Action) (s : State) : motive acts s (runActions acts s) := by
  induction acts generalizing s with
  | nil => exact nil s
  | cons a as ih =>
    induction hn : s.env.size using Nat.strong_induction_on generalizing s with
    | _ n ihn =>
      obtain ⟨e, env, hs, h⟩ | ⟨e, env, hs, h⟩ | ⟨e, env, x, hs, h⟩ | h := perform_answers a s.env
      · rw [runActions_performed h hs]
        exact performed a as s e env _ h hs (ih _)
      · rw [runActions_retried h hs]
        have hlt : env.size < n := by rw [← hn, hs]; exact size_lt_of_retriedBy h
        exact retried a as s e env _ h hs (ihn env.size hlt _ (by simp))
      · rw [runActions_cons, perform_of_failedBy h hs]
        exact failed a as s e env x h hs
      · rw [runActions_cons, perform_of_unanswered h]
        exact unanswered a as s h

/-! ### What a sequence reads: the owned registers and the parameters (R33, R86) -/

/-- The sequence of an operation depends on the owned registers and the parameters only. -/
theorem sequenceOf_congr {s t : State} (i : Instr) (hw : t.w = s.w) (hh : t.h = s.h) (hF : t.lutF = s.lutF)
    (hP : t.lutP = s.lutP) (hparams : t.params = s.params) : sequenceOf i t = sequenceOf i s := by
  obtain ⟨⟩ := s
  obtain ⟨⟩ := t
  simp only at hw hh hF hP hparams
  subst hw hh hF hP hparams
  cases i <;> rfl

theorem OwnedUnchanged.sequenceOf_eq {s t : State} (h : OwnedUnchanged s t) (i : Instr) :
    sequenceOf i t = sequenceOf i s :=
  sequenceOf_congr i h.w h.h h.lutF h.lutP h.params

/-! ### Going on with the request that executes -/

theorem resume_idle {s : State} (hq : s.seq = .idle) : resume s = .next s := by
  simp only [resume, hq]

theorem resume_of_failing {s : State} {r : Running} {i : Instr} {x : ErrVal} (hq : s.seq = .exec r)
    (hop : r.operation s.params.commands = .ok i) (hf : r.failing = some x) :
    resume s = .next (settle (finishOf i) (restoreCS x s)) := by
  simp only [resume, hq, hop, hf]

theorem resume_of_not_failing {s : State} {r : Running} {i : Instr} (hq : s.seq = .exec r)
    (hop : r.operation s.params.commands = .ok i) (hf : r.failing = none) :
    resume s = .next (settle (finishOf i) (runActions (remaining i r s) s)) := by
  simp only [resume, hq, hop, hf]

/-- A request that spells no operation cannot go on. -/
theorem resume_of_error {s : State} {r : Running} {x : Reject} (hq : s.seq = .exec r)
    (hop : r.operation s.params.commands = .error x) : resume s = .fault .noSuchSequence := by
  simp only [resume, hq, hop]

/-! ### More answers for a request that waits (log entries 1, 2) -/

@[simp] theorem withMore_seq (s : State) (more : Env) : (s.withMore more).seq = s.seq := rfl
@[simp] theorem withMore_env (s : State) (more : Env) : (s.withMore more).env = s.env.append more := rfl

/-- An environment with no more answers is the same. -/
@[simp] theorem withMore_reset (s : State) : s.withMore Env.reset = s := by
  simp [State.withMore, Env.append, Env.reset]

theorem append_answer (e : Event) (env more : Env) :
    (Env.answer e env).append more = Env.answer e (env.append more) := by
  cases e <;> rfl

theorem withMore_record (s : State) (env more : Env) (e : Event) :
    (State.record { s with env := env } e).withMore more =
      State.record { s.withMore more with env := env.append more } e := by
  simp only [State.withMore, record_withEnv]

theorem withMore_performed (s : State) (env more : Env) (e : Event) :
    State.withMore { State.record { s with env := env } e with seq := s.seq.advance } more =
      { State.record { s.withMore more with env := env.append more } e with seq := (s.withMore more).seq.advance } := by
  simp only [State.withMore, record_withEnv]

theorem remaining_withMore (i : Instr) (r : Running) (s : State) (more : Env) :
    remaining i r (s.withMore more) = remaining i r s := by
  rw [remaining, remaining, sequenceOf_congr (s := s) (t := s.withMore more) i rfl rfl rfl rfl rfl]

theorem finishOf_withMore (i : Instr) (s : State) (more : Env) :
    (finishOf i s).withMore more = finishOf i (s.withMore more) := by
  cases i <;> rfl

/-- The progress with more answers of the environment to come. -/
def Progress.withMore (p : Progress) (more : Env) : Progress :=
  match p with
  | .done s => .done (s.withMore more)
  | .waiting s => .waiting (s.withMore more)
  | .failed x s => .failed x (s.withMore more)

/-- `p` is what the actions come to from `s` before the answers of `more` have come, `p'` what they come to with them:
the same if they have ended; if they wait, `p'` is reached from there, at the call or the RestoreCS waited for. -/
def GoesOnTo (more : Env) (acts : List Action) (s : State) (p p' : Progress) : Prop :=
  match p with
  | .done t => p' = .done (t.withMore more)
  | .failed x t => p' = .failed x (t.withMore more)
  | .waiting t =>
    (∃ n, t.seq = s.seq.advanceBy n ∧ p' = runActions (acts.drop n) (t.withMore more)) ∨
    ∃ n x, t.seq = (s.seq.advanceBy n).holdError x ∧
      p' = restoreCS x (State.withMore { t with seq := s.seq.advanceBy n } more)

theorem GoesOnTo.performed {more : Env} {as : List Action} {s s' : State} {p p' : Progress} (a : Action)
    (hq : s'.seq = s.seq.advance) (h : GoesOnTo more as s' p p') : GoesOnTo more (a :: as) s p p' := by
  cases p with
  | done t => exact h
  | failed x t => exact h
  | waiting t =>
    simp only [GoesOnTo, hq, advance_advanceBy] at h
    obtain ⟨n, ht, hp⟩ | ⟨n, x, ht, hp⟩ := h
    · exact .inl ⟨n + 1, ht, by simpa using hp⟩
    · exact .inr ⟨n + 1, x, ht, hp⟩

theorem GoesOnTo.retried {more : Env} {acts : List Action} {s s' : State} {p p' : Progress}
    (hq : s'.seq = s.seq) (h : GoesOnTo more acts s' p p') : GoesOnTo more acts s p p' := by
  cases p with
  | done t => exact h
  | failed x t => exact h
  | waiting t => simpa only [GoesOnTo, hq] using h

/-- What follows a failed action goes on likewise: only RestoreCS can wait. -/
theorem goesOnTo_afterFailure (more : Env) (acts : List Action) {s u : State} (a : Action) (x : ErrVal)
    (hq : u.seq = s.seq) : GoesOnTo more acts s (afterFailure a x u) (afterFailure a x (u.withMore more)) := by
  unfold afterFailure
  split
  · cases hp : u.env.pins with
    | nil =>
      have hwait : restoreCS x u = .waiting { u with seq := u.seq.holdError x } := by simp only [restoreCS, hp]
      rw [hwait]
      refine .inr ⟨0, x, by simp [hq], ?_⟩
      rw [advanceBy_zero, withSeq_self hq]
    | cons answer rest =>
      simp only [restoreCS, hp, GoesOnTo, withMore_env, Env.append, List.cons_append, withMore_record]
  · rfl

theorem runActions_goesOnTo (more : Env) (acts : List Action) (s : State) :
    GoesOnTo more acts s (runActions acts s) (runActions acts (s.withMore more)) := by
  have answered {s : State} {e : Event} {env : Env} (hs : s.env = Env.answer e env) :
      (s.withMore more).env = Env.answer e (env.append more) := by rw [withMore_env, hs, append_answer]
  refine runActions_induction (motive := fun acts s p => GoesOnTo more acts s p (runActions acts (s.withMore more)))
    (fun s => rfl) ?_ ?_ ?_ ?_ acts s
  · intro a as s e env p h hs ih
    rw [runActions_performed h (answered hs), ← withMore_performed]
    exact ih.performed a rfl
  · intro a as s e env p h hs ih
    rw [runActions_retried h (answered hs), ← withMore_record]
    exact ih.retried (by simp)
  · intro a as s e env x h hs
    rw [runActions_cons, perform_of_failedBy h (answered hs)]
    have hgo := goesOnTo_afterFailure more (a :: as) (s := s) (u := State.record { s with env := env } e) a x (by simp)
    rwa [withMore_record] at hgo
  · intro a as s h
    exact .inl ⟨0, by simp, rfl⟩

/-! ### A request that waits goes on from where it stands (R33, R273, R313) -/

@[simp] theorem holdError_holdError (q : Seq) (x y : ErrVal) : (q.holdError x).holdError y = q.holdError y := by
  cases q <;> rfl

@[simp] theorem holdError_exec (r : Running) (x : ErrVal) :
    (Seq.exec r).holdError x = .exec { r with failing := some x } := rfl

/-- That the error is already held makes no difference to RestoreCS and what follows it. -/
theorem settle_restoreCS_holdError (finish : State → State) (s : State) (q : Seq) (x : ErrVal) :
    settle finish (restoreCS x { s with seq := q.holdError x }) = settle finish (restoreCS x { s with seq := q }) := by
  cases hp : s.env.pins with
  | nil => simp only [restoreCS, hp, holdError_holdError]
  | cons a rest => simp [restoreCS, hp, settle, abort, State.record, Ghost.observe]

theorem owned_of_done {acts : List Action} {s t : State} (h : runActions acts s = .done t) : OwnedUnchanged s t := by
  have howned := runActions_owned acts s
  rwa [h] at howned

theorem owned_of_waiting {acts : List Action} {s t : State} (h : runActions acts s = .waiting t) :
    OwnedUnchanged s t := by
  have howned := runActions_owned acts s
  rwa [h] at howned

section
variable {s t : State} {r : Running} {i : Instr} {acts : List Action} {n : Nat}
  (hq : s.seq = .exec r) (hop : r.operation s.params.commands = .ok i) (ht : OwnedUnchanged s t)
include hq hop ht

/-- Going on from a call waited for is performing the actions from that call on. -/
theorem resume_of_advanced (hf : r.failing = none) (hseq : t.seq = s.seq.advanceBy n) :
    resume t = .next (settle (finishOf i) (runActions ((remaining i r s).drop n) t)) := by
  rw [hq, advanceBy_exec] at hseq
  have hopt : Running.operation { r with upc := r.upc + n } t.params.commands = .ok i := by rw [ht.params]; exact hop
  rw [resume_of_not_failing hseq hopt hf, remaining, ht.sequenceOf_eq, remaining, List.drop_drop]

/-- Going on from a RestoreCS waited for is RestoreCS. -/
theorem resume_of_held {x : ErrVal} (hseq : t.seq = (s.seq.advanceBy n).holdError x) :
    resume t = .next (settle (finishOf i) (restoreCS x { t with seq := s.seq.advanceBy n })) := by
  have hheld := settle_restoreCS_holdError (finishOf i) t (s.seq.advanceBy n) x
  rw [withSeq_self hseq] at hheld
  rw [hq, advanceBy_exec, holdError_exec] at hseq
  have hopt : Running.operation { r with upc := r.upc + n, failing := some x } t.params.commands = .ok i := by
    rw [ht.params]; exact hop
  rw [resume_of_failing hseq hopt rfl, hheld]

end

/-- A sequence performed whole leaves µpc after its last action (R33). -/
theorem seq_of_done {acts : List Action} {s t : State} (h : runActions acts s = .done t) :
    t.seq = s.seq.advanceBy acts.length := by
  obtain ⟨ev, rest, -, -, h'⟩ | ⟨x, ev, rest, n, -, -, h'⟩ | ⟨ev, rest, n, -, -, h'⟩ | ⟨x, ev, rest, n, -, -, h'⟩ :=
    runActions_cases acts s <;> rw [h] at h' <;> cases h'
  rfl

theorem OwnedUnchanged.withMore {s t : State} (h : OwnedUnchanged s t) (more : Env) :
    OwnedUnchanged s (t.withMore more) :=
  ⟨h.life, h.w, h.h, h.lutF, h.lutP, h.refused, h.params, h.host⟩

theorem finishOf_seq (i : Instr) (s : State) : (finishOf i s).seq = .idle := by cases i <;> rfl

/-- A request goes on with more answers as it goes on, with them, from where it stood without them. -/
theorem resume_withMore {s t : State} {r : Running} {i : Instr} (more : Env) (hq : s.seq = .exec r)
    (hop : r.operation s.params.commands = .ok i) (h : resume s = .next t) :
    resume (s.withMore more) = resume (t.withMore more) := by
  cases hf : r.failing with
  | some x =>
    rw [resume_of_failing hq hop hf, Host.Outcome.next.injEq] at h
    rw [resume_of_failing (s := s.withMore more) hq hop hf]
    cases hp : s.env.pins with
    | nil =>
      have hheld : s.seq.holdError x = s.seq := by rw [hq, holdError_exec, ← hf]
      simp only [restoreCS, hp, settle, hheld] at h
      rw [← h]
      exact (resume_of_failing (s := s.withMore more) hq hop hf).symm
    | cons a rest =>
      simp only [restoreCS, hp, settle] at h
      rw [← h, resume_idle rfl]
      simp only [restoreCS, withMore_env, Env.append, hp, List.cons_append, settle]
      rfl
  | none =>
    rw [resume_of_not_failing hq hop hf, Host.Outcome.next.injEq] at h
    rw [resume_of_not_failing (s := s.withMore more) hq hop hf, remaining_withMore]
    have hgo := runActions_goesOnTo more (remaining i r s) s
    cases hp : runActions (remaining i r s) s with
    | done u =>
      rw [hp] at hgo h
      rw [hgo, ← h, resume_idle (by simp [settle, finishOf_seq]), settle, settle, finishOf_withMore]
    | failed x u =>
      rw [hp] at hgo h
      rw [hgo, ← h, resume_idle rfl]
      rfl
    | waiting u =>
      have howned := (owned_of_waiting hp).withMore more
      rw [hp] at hgo h
      simp only [settle] at h
      subst h
      obtain ⟨n, hseq, hgo⟩ | ⟨n, x, hseq, hgo⟩ := hgo
      · rw [hgo, resume_of_advanced hq hop howned hf hseq]
      · rw [hgo, resume_of_held hq hop howned hseq]
        rfl

/-! ### The transfer the sequencer stands before (R33, R110) -/

/-- The payload ahead is exchanged byte by byte up to the CS-high action. -/
theorem payloadAhead_eq_some {acts : List Action} {p : List Byte} (h : payloadAhead acts = some p) :
    ∃ rest, acts = exchangeAll p ++ .pin .cs true false :: rest := by
  fun_induction payloadAhead acts generalizing p with
  | case1 b rest ih =>
    obtain ⟨bs, hbs, rfl⟩ := Option.map_eq_some_iff.mp h
    obtain ⟨tail, rfl⟩ := ih hbs
    exact ⟨tail, rfl⟩
  | case2 rest =>
    cases h
    exact ⟨rest, rfl⟩
  | case3 => cases h

/-- The transfer ahead is the head of the actions. -/
theorem transferAhead_eq_some {acts : List Action} {t : Transfer} (h : transferAhead acts = some t) :
    ∃ rest, acts = transferActions t.opcode t.payload ++ rest := by
  unfold transferAhead at h
  split at h
  · cases h
    exact ⟨_, rfl⟩
  · obtain ⟨p, hp, rfl⟩ := Option.map_eq_some_iff.mp h
    obtain ⟨tail, rfl⟩ := payloadAhead_eq_some hp
    exact ⟨tail, by simp [transferActions, cmdString, exchange]⟩
  · cases h

/-- A transfer decodes to the command of its opcode, with its payload (R121). -/
theorem decodeTransfer_eq_ok {c : CommandTable} {t : Transfer} {i : Instr} (h : decodeTransfer c t = .ok i) :
    ∃ k : Command, i = k.instr t.payload ∧ c.opcode k = t.opcode := by
  unfold decodeTransfer inCatalog at h
  split at h
  · split at h
    · next k hk =>
      cases h
      exact ⟨k, rfl, CommandTable.opcode_of_commandOf hk⟩
    · cases h
  · cases h

/-- The command the sequencer stands before begins what remains of the request. -/
theorem nextCommand_eq_some {s : State} {r : Running} {c : Instr} (hq : s.seq = .exec r)
    (h : nextCommand s = some c) :
    ∃ i k p rest, r.failing = none ∧ r.operation s.params.commands = .ok i ∧ c = Command.instr k p ∧
      remaining i r s = transferActions (s.opc k) p ++ rest := by
  simp only [nextCommand, hq] at h
  split at h
  · next i hf hop =>
    split at h
    · cases h
    · next t ht =>
      split at h
      · next c hc =>
        cases h
        obtain ⟨k, rfl, hk⟩ := decodeTransfer_eq_ok hc
        obtain ⟨rest, hrest⟩ := transferAhead_eq_some ht
        exact ⟨i, k, t.payload, rest, hf, hop, rfl, by rw [hrest, ← hk]⟩
      · cases h
  · cases h

/-- One transfer of a request, and then the rest of the request, is going on with the request. -/
theorem thenResume_commandTransfer {s : State} {r : Running} {i : Instr} {k : Command} {p : Payload}
    {rest : List Action} (hq : s.seq = .exec r) (hop : r.operation s.params.commands = .ok i) (hf : r.failing = none)
    (hrem : remaining i r s = transferActions (s.opc k) p ++ rest) :
    thenResume (commandTransfer k p s) = resume s := by
  rw [resume_of_not_failing hq hop hf, hrem, runActions_append]
  simp only [commandTransfer, hq, hf, thenResume]
  have hgo := runActions_goesOnTo Env.reset (transferActions (s.opc k) p) s
  rw [withMore_reset] at hgo
  cases hp : runActions (transferActions (s.opc k) p) s with
  | done u =>
    simp only [settle, id]
    rw [resume_of_advanced hq hop (owned_of_done hp) hf (seq_of_done hp), hrem, List.drop_left]
    rfl
  | failed x u => exact resume_idle rfl
  | waiting u =>
    rw [hp] at hgo
    simp only [settle]
    simp only [GoesOnTo, withMore_reset] at hgo
    obtain ⟨n, hseq, hgo⟩ | ⟨n, x, hseq, hgo⟩ := hgo
    · have hn : n ≤ (transferActions (s.opc k) p).length := by
        by_contra hlt
        rw [List.drop_eq_nil_of_le (by omega)] at hgo
        cases hgo
      rw [resume_of_advanced hq hop (owned_of_waiting hp) hf hseq, hrem, List.drop_append_of_le_length hn,
        runActions_append, ← hgo]
      rfl
    · rw [resume_of_held hq hop (owned_of_waiting hp) hseq, ← hgo]
      rfl

/-! ### A step while a request executes (R33, R110) -/

/-- Settles O13: the step stands before that command. -/
theorem stepRunsNextCommand : Obligations.StepRunsNextCommand := by
  intro s r c hq hc
  simp only [step, hq, hc]

/-- A step of an executing request is going on with it, whether or not a command transfer is next. -/
theorem step_of_exec {s : State} {r : Running} (hq : s.seq = .exec r) : step s = resume s := by
  cases hc : nextCommand s with
  | none => simp only [step, hq, hc]
  | some c =>
    obtain ⟨i, k, p, rest, hf, hop, rfl, hrem⟩ := nextCommand_eq_some hq hc
    rw [stepRunsNextCommand s r _ hq hc, exec_eq_commandTransfer, thenResume_commandTransfer hq hop hf hrem]

/-- Settles O15: going on with the request is its sequence from µpc on. -/
theorem stepFollowsSequence : Obligations.StepFollowsSequence := by
  intro s r i hq hop hf
  rw [step_of_exec hq, resume_of_not_failing hq hop hf, remaining]

/-! ### What a host request does (R32, R151, R304, R307) -/

/-- The state in which an operation is accepted: INIT writes the owned registers and LIFE first (R151). -/
def accepted (i : Instr) (s : State) : State :=
  match i with
  | .init p => acceptProfile p s
  | _ => s

/-- The operation is refused: no request spells it, or LIFE is UNINIT and it is not INIT (R103, R304, R305). -/
def refuses (i : Instr) (s : State) : Bool :=
  match i with
  | .init p => !p.legal
  | _ => !i.wellFormed s.params.commands || decide (s.life = .uninit)

/-- What becomes of an operation presented while no request executes, in the order of R307: refused, ended by its
check, or begun and carried as far as the environment's answers go. -/
def presented (i : Instr) (s : State) : Host.Outcome State Fault Refusal :=
  if refuses i s then .next (refuse s)
  else
    match checkOf i s with
    | some st => .next (abort st s)
    | none => resume (start i (accepted i s))

theorem accepted_of_ne_init {i : Instr} (hi : ∀ p, i ≠ .init p) (s : State) : accepted i s = s := by
  cases i with
  | init p => exact absurd rfl (hi p)
  | _ => rfl

theorem refuses_of_ne_init {i : Instr} (hi : ∀ p, i ≠ .init p) (s : State) :
    refuses i s = (!i.wellFormed s.params.commands || decide (s.life = .uninit)) := by
  cases i with
  | init p => exact absurd rfl (hi p)
  | _ => rfl

theorem finishOf_of_ne_init {i : Instr} (hi : ∀ p, i ≠ .init p) : finishOf i = complete := by
  cases i with
  | init p => exact absurd rfl (hi p)
  | _ => rfl

theorem wellFormed_of_not_refuses {i : Instr} {s : State} (h : refuses i s = false) :
    i.wellFormed s.params.commands = true := by
  by_cases hi : ∃ p, i = .init p
  · obtain ⟨p, rfl⟩ := hi
    simpa only [refuses, Instr.wellFormed, Bool.not_eq_false'] using h
  · rw [refuses_of_ne_init (not_exists.mp hi)] at h
    simp only [Bool.or_eq_false_iff, Bool.not_eq_false'] at h
    exact h.1

@[simp] theorem accepted_csL (i : Instr) (s : State) : (accepted i s).csL = s.csL := by cases i <;> rfl
@[simp] theorem accepted_trace (i : Instr) (s : State) : (accepted i s).trace = s.trace := by cases i <;> rfl
@[simp] theorem accepted_status (i : Instr) (s : State) : (accepted i s).status = s.status := by cases i <;> rfl
@[simp] theorem accepted_refused (i : Instr) (s : State) : (accepted i s).refused = s.refused := by cases i <;> rfl
@[simp] theorem accepted_params (i : Instr) (s : State) : (accepted i s).params = s.params := by cases i <;> rfl

/-- The latched request of a well-formed operation spells that operation (R34). -/
theorem operation_start {i : Instr} {q : Request} {s : State} (henc : encode s.params.commands i = .request q)
    (hw : i.wellFormed s.params.commands = true) (n : Nat) (x : Option ErrVal) :
    Running.operation { req := requestOf s.params.commands i, upc := n, failing := x } s.params.commands = .ok i := by
  rw [requestOf_eq henc]
  exact decodeRequest_of_encode henc hw

/-- A request just begun is carried through its whole sequence. -/
theorem resume_start {i : Instr} {q : Request} {s : State} (henc : encode s.params.commands i = .request q)
    (hw : i.wellFormed s.params.commands = true) :
    resume (start i s) = .next (settle (finishOf i) (runActions (sequenceOf i s) (start i s))) := by
  rw [resume_of_not_failing (s := start i s) rfl (operation_start henc hw 0 none) rfl, remaining,
    sequenceOf_congr (s := s) (t := start i s) i rfl rfl rfl rfl rfl, List.drop_zero]

/-- What a host operation does while no request executes. -/
theorem exec_of_idle {i : Instr} {q : Request} {s : State} (henc : encode s.params.commands i = .request q)
    (hq : s.seq = .idle) : exec i s = presented i s := by
  by_cases hi : ∃ p, i = .init p
  · obtain ⟨p, rfl⟩ := hi
    cases hp : p.legal with
    | true =>
      simp only [exec, execInit, hq, hp, presented, refuses, checkOf, checkNothing, accepted]
      exact (resume_start (s := acceptProfile p s) henc hp).symm
    | false => simp [exec, execInit, hq, hp, presented, refuses]
  · have hi := not_exists.mp hi
    rw [exec_eq_hostOperation henc hi]
    simp only [hostOperation, hq, presented, refuses_of_ne_init hi, accepted_of_ne_init hi, execute]
    cases hw : i.wellFormed s.params.commands with
    | false => rfl
    | true =>
      cases hl : s.life with
      | uninit => rfl
      | ready =>
        cases checkOf i s with
        | some st => rfl
        | none => simp [resume_start henc hw, finishOf_of_ne_init hi]

/-- While a request executes a host operation has no move (R8, R330). -/
theorem exec_of_exec {i : Instr} {q : Request} {r : Running} {s : State}
    (henc : encode s.params.commands i = .request q) (hq : s.seq = .exec r) :
    exec i s = .fault .requestWhileExecuting := noMoveOutOfTurn.1 i q r s henc hq

/-- A host operation that has a move has it while no request executes (R8). -/
theorem idle_of_exec_next {i : Instr} {q : Request} {s t : State} (henc : encode s.params.commands i = .request q)
    (h : exec i s = .next t) : s.seq = .idle := by
  cases hq : s.seq with
  | idle => rfl
  | exec r => rw [exec_of_exec henc hq] at h; cases h

/-- An instruction that has a move while no request executes is a host operation (R7, R32). -/
theorem encode_of_exec_next {i : Instr} {s t : State} (hq : s.seq = .idle) (h : exec i s = .next t) :
    ∃ q, encode s.params.commands i = .request q := by
  cases henc : encode s.params.commands i with
  | request q => exact ⟨q, rfl⟩
  | transfer t' => rw [noMoveOutOfTurn.2.1 i t' s henc hq] at h; cases h

/-- The three things a host operation can come to. -/
theorem presented_cases {i : Instr} {s t : State} (h : presented i s = .next t) :
    (refuses i s = true ∧ t = refuse s) ∨
    (refuses i s = false ∧ ∃ st, checkOf i s = some st ∧ t = abort st s) ∨
      (refuses i s = false ∧ checkOf i s = none ∧ resume (start i (accepted i s)) = .next t) := by
  unfold presented at h
  split at h
  · next hr =>
    cases h
    exact .inl ⟨hr, rfl⟩
  · next hr =>
    have hr : refuses i s = false := by simpa using hr
    split at h
    · next st hc =>
      cases h
      exact .inr (.inl ⟨hr, st, hc, rfl⟩)
    · next hc => exact .inr (.inr ⟨hr, hc, h⟩)

/-! ### Answers that come late (R33, R82) -/

theorem refuses_withMore (i : Instr) (s : State) (more : Env) : refuses i (s.withMore more) = refuses i s := by
  cases i <;> rfl

theorem checkOf_withMore (i : Instr) (s : State) (more : Env) : checkOf i (s.withMore more) = checkOf i s := by
  cases i <;> rfl

theorem start_accepted_withMore (i : Instr) (s : State) (more : Env) :
    start i (accepted i (s.withMore more)) = (start i (accepted i s)).withMore more := by
  cases i <;> rfl

/-- Settles O59: a begun request goes on with more answers from where it stood without them, and the refusals and
checks before that read no answer. -/
theorem lateAnswersChangeNothing : Obligations.LateAnswersChangeNothing := by
  intro i s t more hq h
  obtain ⟨q, henc⟩ := encode_of_exec_next hq h
  have hgo : exec i (s.withMore more) = resume (t.withMore more) := by
    rw [exec_of_idle henc hq] at h
    rw [exec_of_idle (s := s.withMore more) henc hq]
    rw [presented, refuses_withMore, checkOf_withMore]
    obtain ⟨hr, rfl⟩ | ⟨hr, st, hc, rfl⟩ | ⟨hr, hc, h⟩ := presented_cases h
    · rw [hr, resume_idle (s := (refuse s).withMore more) hq]
      rfl
    · rw [hr, hc, resume_idle (s := (abort st s).withMore more) rfl]
      rfl
    · rw [hr, hc, start_accepted_withMore]
      have hop := operation_start (s := accepted i s) (by simpa using henc)
        (by simpa using wellFormed_of_not_refuses hr) 0 none
      exact resume_withMore (s := start i (accepted i s)) more rfl hop h
  rw [hgo]
  cases ht : t.seq with
  | idle => exact resume_idle (s := t.withMore more) ht
  | exec r => exact (step_of_exec (s := t.withMore more) ht).symm

/-! ### What port actions and the end of a request leave unchanged (R43, R44, R80, R312) -/

theorem OwnedUnchanged.refl (s : State) : OwnedUnchanged s s := ⟨rfl, rfl, rfl, rfl, rfl, rfl, rfl, rfl⟩

/-- The state after the events have happened, with `rest` still to answer and SEQ at `q`. -/
def State.moved (s : State) (ev : List Event) (rest : Env) (q : Seq) : State :=
  { State.recordAll { s with env := rest } ev with seq := q }

theorem after_eq_moved (s : State) (ev : List Event) (rest : Env) (n : Nat) :
    s.after ev rest n = s.moved ev rest (s.seq.advanceBy n) := rfl

/-- `t` is `s` after some events, answered by the environment; beside what the events write, at most SEQ differs. -/
def StandsAfter (s t : State) : Prop := ∃ ev rest q, t = s.moved ev rest q

theorem runActions_standsAfter (acts : List Action) (s : State) : StandsAfter s (runActions acts s).state := by
  obtain ⟨ev, rest, -, -, h⟩ | ⟨x, ev, rest, n, -, -, h⟩ | ⟨ev, rest, n, -, -, h⟩ | ⟨x, ev, rest, n, -, -, h⟩ :=
    runActions_cases acts s <;> rw [h] <;> exact ⟨ev, rest, _, rfl⟩

theorem restoreCS_standsAfter (x : ErrVal) (s : State) : StandsAfter s (restoreCS x s).state := by
  unfold restoreCS
  split
  · exact ⟨[], s.env, _, rfl⟩
  · next a rest _ => exact ⟨[.pin .cs true a], { s.env with pins := rest }, s.seq, rfl⟩

theorem StandsAfter.owned {s t : State} (h : StandsAfter s t) : OwnedUnchanged s t := by
  obtain ⟨ev, rest, q, rfl⟩ := h
  constructor <;> simp [State.moved]

theorem StandsAfter.status_eq {s t : State} (h : StandsAfter s t) : t.status = s.status := by
  obtain ⟨ev, rest, q, rfl⟩ := h
  simp [State.moved]

/-- What going on with a request comes to: the events of its progress have happened, and it is settled. -/
theorem resume_cases {s t : State} {r : Running} (hq : s.seq = .exec r) (h : resume s = .next t) :
    ∃ i p, r.operation s.params.commands = .ok i ∧ t = settle (finishOf i) p ∧ StandsAfter s p.state := by
  cases hop : r.operation s.params.commands with
  | error x => rw [resume_of_error hq hop] at h; cases h
  | ok i =>
    cases hf : r.failing with
    | some x =>
      rw [resume_of_failing hq hop hf] at h
      cases h
      exact ⟨i, _, rfl, rfl, restoreCS_standsAfter x s⟩
    | none =>
      rw [resume_of_not_failing hq hop hf] at h
      cases h
      exact ⟨i, _, rfl, rfl, runActions_standsAfter _ s⟩

theorem settle_owned {finish : State → State} (hfin : ∀ u, OwnedUnchanged u (finish u)) {s : State} {p : Progress}
    (h : OwnedUnchanged s p.state) : OwnedUnchanged s (settle finish p) := by
  cases p with
  | done u =>
    have h' := hfin u
    exact ⟨h'.life.trans h.life, h'.w.trans h.w, h'.h.trans h.h, h'.lutF.trans h.lutF, h'.lutP.trans h.lutP,
      h'.refused.trans h.refused, h'.params.trans h.params, h'.host.trans h.host⟩
  | waiting u => exact h
  | failed x u => exact ⟨h.life, h.w, h.h, h.lutF, h.lutP, h.refused, h.params, h.host⟩

theorem complete_owned (s : State) : OwnedUnchanged s (complete s) := ⟨rfl, rfl, rfl, rfl, rfl, rfl, rfl, rfl⟩

/-! ### Only INIT writes the owned registers (R80, R312) -/

/-- A controller command writes no owned register. -/
theorem commandTransfer_owned {k : Command} {p : Payload} {s t : State} (h : commandTransfer k p s = .next t) :
    OwnedUnchanged s t := by
  unfold commandTransfer at h
  split at h
  · cases h
  · split at h
    · cases h
    · cases h
      exact settle_owned OwnedUnchanged.refl (runActions_owned _ s)

/-- A host operation but INIT writes none, and REFUSED only when it is refused. -/
theorem presented_owned {i : Instr} {q : Request} {s t : State} (henc : encode s.params.commands i = .request q)
    (hi : ∀ p, i ≠ .init p) (h : presented i s = .next t) : t = refuse s ∨ OwnedUnchanged s t := by
  obtain ⟨-, rfl⟩ | ⟨-, st, -, rfl⟩ | ⟨hr, -, h⟩ := presented_cases h
  · exact .inl rfl
  · exact .inr ⟨rfl, rfl, rfl, rfl, rfl, rfl, rfl, rfl⟩
  · rw [accepted_of_ne_init hi, resume_start henc (wellFormed_of_not_refuses hr), finishOf_of_ne_init hi] at h
    cases h
    obtain ⟨hl, hw, hh, hF, hP, href, hpar, hhost⟩ :=
      settle_owned complete_owned (runActions_owned (sequenceOf i s) (start i s))
    exact .inr ⟨hl, hw, hh, hF, hP, href, hpar, hhost⟩

/-- Settles O49: no port action and no end of another request writes them, and a refusal sets REFUSED. -/
theorem onlyInitWritesOwnedRegisters : Obligations.OnlyInitWritesOwnedRegisters := by
  intro i s t hi h
  have hcases : t = refuse s ∨ OwnedUnchanged s t := by
    cases henc : encode s.params.commands i with
    | request q =>
      rw [exec_of_idle henc (idle_of_exec_next henc h)] at h
      exact presented_owned henc hi h
    | transfer t' =>
      obtain ⟨k, rfl, -⟩ := instr_of_encode henc
      rw [exec_eq_commandTransfer] at h
      exact .inr (commandTransfer_owned h)
  obtain rfl | ho := hcases
  · exact ⟨rfl, rfl, rfl, rfl, rfl, rfl, fun _ => rfl⟩
  · exact ⟨ho.w, ho.h, ho.lutF, ho.lutP, ho.life, ho.params, fun hs => ho.refused.trans hs⟩

/-! ### INIT's writes (R151, R156, R158) -/

/-- A request still waiting still executes (R313). -/
theorem runActions_seq_ne_idle {s : State} {r : Running} (hq : s.seq = .exec r) (acts : List Action) :
    (runActions acts s).state.seq ≠ .idle := by
  obtain ⟨ev, rest, -, -, h⟩ | ⟨x, ev, rest, n, -, -, h⟩ | ⟨ev, rest, n, -, -, h⟩ | ⟨x, ev, rest, n, -, -, h⟩ :=
    runActions_cases acts s <;> rw [h] <;> simp [Progress.state, State.after, hq]

/-- Settles O50, by how the accepted INIT's sequence stands. -/
theorem initWritesProfileAtAcceptance : Obligations.InitWritesProfileAtAcceptance := by
  intro p s hp hq
  let u := start (.init p) (acceptProfile p s)
  have hexec : exec (.init p) s = .next (settle completeInit (runActions (initActions p (acceptProfile p s)) u)) := by
    simp only [exec, execInit, hq, hp, if_true, u]
  obtain ⟨hl, hw, hh, hF, hP, href, hpar, hhost⟩ := runActions_owned (initActions p (acceptProfile p s)) u
  have hst := (runActions_standsAfter (initActions p (acceptProfile p s)) u).status_eq
  have hne := runActions_seq_ne_idle (s := u) rfl (initActions p (acceptProfile p s))
  refine ⟨_, hexec, ?_⟩
  generalize runActions (initActions p (acceptProfile p s)) u = pr at hl hw hh hF hP href hpar hhost hst hne
  cases pr with
  | done v => exact ⟨hw, hh, hF, hP, href, hhost, hpar, .inl ⟨rfl, rfl, rfl⟩⟩
  | failed x v => exact ⟨hw, hh, hF, hP, href, hhost, hpar, .inr (.inl ⟨hl, rfl, x, rfl⟩)⟩
  | waiting v => exact ⟨hw, hh, hF, hP, href, hhost, hpar, .inr (.inr ⟨hl, hne, hst⟩)⟩

/-! ### STATUS and REFUSED (R43, R44) -/

/-- STATUS as before while a request still executes, REFUSED not cleared. -/
def StatusAtEnd (s t : State) : Prop :=
  (∀ r, t.seq = .exec r → t.status = s.status) ∧ (s.refused = true → t.refused = true)

theorem statusAtEnd_of_idle {s t : State} (hq : t.seq = .idle) (href : s.refused = true → t.refused = true) :
    StatusAtEnd s t :=
  ⟨fun _ hr => Seq.noConfusion (hq.symm.trans hr), href⟩

theorem finishOf_refused (i : Instr) (s : State) : (finishOf i s).refused = s.refused := by cases i <;> rfl

theorem resume_statusAtEnd {s t : State} {r : Running} (hq : s.seq = .exec r) (h : resume s = .next t) :
    StatusAtEnd s t := by
  obtain ⟨i, p, -, rfl, hp⟩ := resume_cases hq h
  have href := hp.owned.refused
  cases p with
  | done u => exact statusAtEnd_of_idle (finishOf_seq i u) fun hs => (finishOf_refused i u).trans (href.trans hs)
  | waiting u => exact ⟨fun _ _ => hp.status_eq, fun hs => href.trans hs⟩
  | failed x u => exact statusAtEnd_of_idle rfl fun hs => href.trans hs

theorem presented_statusAtEnd {i : Instr} {s t : State} (hq : s.seq = .idle) (h : presented i s = .next t) :
    StatusAtEnd s t := by
  obtain ⟨-, rfl⟩ | ⟨-, st, -, rfl⟩ | ⟨-, -, h⟩ := presented_cases h
  · exact statusAtEnd_of_idle hq fun _ => rfl
  · exact statusAtEnd_of_idle rfl id
  · simpa [StatusAtEnd] using resume_statusAtEnd (s := start i (accepted i s)) rfl h

/-- Taking a request: it is refused by decoding, or it is a host operation presented (R104). -/
theorem takeRequest_cases {r : Request} {s : State} (hq : s.seq = .idle) :
    takeRequest r s = .next (refuse s) ∨
      ∃ i, encode s.params.commands i = .request (requestOf s.params.commands i) ∧ takeRequest r s = presented i s := by
  cases hd : decodeRequest s.params.commands r with
  | error x => exact .inl (by simp only [takeRequest, hd])
  | ok i =>
    obtain ⟨⟨q, henc⟩, -⟩ := spellsHost_decodeRequest r i hd
    refine .inr ⟨i, by rw [requestOf_eq henc, henc], ?_⟩
    rw [takeRequest_of_decodes hd, exec_of_idle henc hq]

/-- Settles O51, by what taking a request and going on with one can do. -/
theorem statusWrittenAtEndOnly : Obligations.StatusWrittenAtEndOnly := by
  intro s t h
  change StatusAtEnd s t
  cases hq : s.seq with
  | exec r =>
    rw [step_of_exec hq] at h
    exact resume_statusAtEnd hq h
  | idle =>
    cases hh : s.host with
    | nil =>
      rw [step_of_idle_nil hq hh] at h
      cases h
      exact statusAtEnd_of_idle hq id
    | cons r rest =>
      rw [step_of_idle_cons hq hh] at h
      obtain htake | ⟨i, -, htake⟩ := takeRequest_cases (r := r) (s := { s with host := rest }) hq <;>
        rw [htake] at h
      · cases h
        exact statusAtEnd_of_idle hq fun _ => rfl
      · exact presented_statusAtEnd (s := { s with host := rest }) hq h

/-! ### CS is low at no point where a request can end (R273) -/

theorem csL_of_performedBy {a : Action} {e : Event} (h : a.performedBy e = true) (s : State) :
    (s.record e).csL = a.csAfter s.csL := by
  cases a with
  | pin p v g =>
    simp only [Action.performedBy, decide_eq_true_eq] at h
    subst h
    cases p <;> rfl
  | read =>
    cases e <;> simp only [Action.performedBy, Event.isByteRead, Bool.false_eq_true] at h
    rfl
  | _ => simp only [Action.performedBy, decide_eq_true_eq] at h; subst h; rfl

theorem csL_of_retriedBy {a : Action} {e : Event} (h : a.retriedBy e = true) (s : State) :
    (s.record e).csL = s.csL := by
  cases a <;> simp only [Action.retriedBy, decide_eq_true_eq, Bool.false_eq_true] at h <;> subst h <;> rfl

/-- A failed CS action leaves CS at X, any other failed action leaves CS as it was. -/
theorem csL_of_failedBy {a : Action} {e : Event} {x : ErrVal} (h : a.failedBy x e = true) (s : State) :
    (s.record e).csL = if a.drivesCs then .unknown else s.csL := by
  cases a with
  | pin p v g =>
    simp only [Action.failedBy, decide_eq_true_eq] at h
    subst h
    cases p <;> rfl
  | delay ms => simp [Action.failedBy] at h
  | _ => simp only [Action.failedBy, decide_eq_true_eq] at h; subst h; rfl

theorem latchLevel_true_ne_low (a : PinAnswer) : latchLevel true a ≠ .low := by cases a <;> nofun

/-- Where a sequence stands with CS safe: not low if it has ended, safe from the call waited for on if it waits. -/
def StandsSafely (acts : List Action) (s : State) (p : Progress) : Prop :=
  match p with
  | .done t => t.csL ≠ .low
  | .failed _ t => t.csL ≠ .low
  | .waiting t => ∃ n ≤ acts.length,
      (t.seq = s.seq.advanceBy n ∧ csSafe t.csL (acts.drop n) = true) ∨ ∃ x, t.seq = (s.seq.advanceBy n).holdError x

theorem StandsSafely.performed {as : List Action} {s s' : State} {p : Progress} (a : Action)
    (h : StandsSafely as s' p) (hq : s'.seq = s.seq.advance) : StandsSafely (a :: as) s p := by
  cases p with
  | done t => exact h
  | failed x t => exact h
  | waiting t =>
    obtain ⟨n, hn, h⟩ := h
    rw [hq, advance_advanceBy] at h
    exact ⟨n + 1, Nat.succ_le_succ hn, h⟩

theorem StandsSafely.retried {acts : List Action} {s s' : State} {p : Progress}
    (h : StandsSafely acts s' p) (hq : s'.seq = s.seq) : StandsSafely acts s p := by
  cases p with
  | done t => exact h
  | failed x t => exact h
  | waiting t => simpa only [StandsSafely, hq] using h

theorem restoreCS_standsSafely (acts : List Action) {s u : State} (x : ErrVal) (hq : u.seq = s.seq) :
    StandsSafely acts s (restoreCS x u) := by
  unfold restoreCS
  split
  · exact ⟨0, Nat.zero_le _, .inr ⟨x, by rw [advanceBy_zero, hq]⟩⟩
  · exact latchLevel_true_ne_low _

/-- What follows a failed action leaves CS not low: RestoreCS drives it, and without one it was not low or is at X. -/
theorem afterFailure_standsSafely {acts : List Action} {s u : State} {a : Action} {x : ErrVal}
    (ha : a.guarded = true ∨ u.csL ≠ .low) (hq : u.seq = s.seq) : StandsSafely acts s (afterFailure a x u) := by
  unfold afterFailure
  split
  · exact restoreCS_standsSafely acts x hq
  · next hg => exact ha.resolve_left hg

/-- A sequence that is safe stands safely however it goes (R273). -/
theorem runActions_standsSafely (acts : List Action) (s : State) :
    csSafe s.csL acts = true → StandsSafely acts s (runActions acts s) := by
  refine runActions_induction (motive := fun acts s p => csSafe s.csL acts = true → StandsSafely acts s p)
    ?_ ?_ ?_ ?_ ?_ acts s
  · intro s hsafe
    simpa [csSafe, StandsSafely] using hsafe
  · intro a as s e env p h hs ih hsafe
    simp only [csSafe, Bool.and_eq_true] at hsafe
    refine (ih ?_).performed a rfl
    rw [← csL_of_performedBy h s] at hsafe
    simpa only [record_withEnv] using hsafe.2
  · intro a as s e env p h hs ih hsafe
    refine (ih ?_).retried (record_seq _ _)
    rw [csL_of_retriedBy h]
    exact hsafe
  · intro a as s e env x h hs hsafe
    simp only [csSafe, Bool.and_eq_true, Bool.or_eq_true, decide_eq_true_eq] at hsafe
    refine afterFailure_standsSafely ?_ (record_seq _ _)
    rw [csL_of_failedBy h]
    obtain ⟨(hg | hd) | hlow, -⟩ := hsafe
    · exact .inl hg
    · exact .inr (by simp [hd])
    · refine .inr ?_
      split
      · nofun
      · exact hlow
  · intro a as s h hsafe
    exact ⟨0, Nat.zero_le _, .inl ⟨(advanceBy_zero _).symm, hsafe⟩⟩

/-! ### Every operation's sequence is safe -/

/-- From CS not low, the actions are safe and leave CS not low: what follows them is safe if it is safe from there. -/
def KeepsCs (acts : List Action) : Prop :=
  ∀ (c : Level) (rest : List Action), c ≠ .low → (∀ d : Level, d ≠ .low → csSafe d rest = true) →
    csSafe c (acts ++ rest) = true

theorem KeepsCs.append {as bs : List Action} (ha : KeepsCs as) (hb : KeepsCs bs) : KeepsCs (as ++ bs) := by
  intro c rest hc h
  rw [List.append_assoc]
  exact ha c _ hc fun d hd => hb d rest hd h

theorem KeepsCs.csSafe {acts : List Action} (h : KeepsCs acts) {c : Level} (hc : c ≠ .low) :
    csSafe c acts = true := by
  simpa using h c [] hc fun d hd => by simpa [Machine.csSafe] using hd

/-- Inside a transfer every action is guarded, so that the exchanges of a payload are safe at any level. -/
theorem csSafe_exchangeAll (c : Level) (bs : List Byte) (rest : List Action) :
    csSafe c (exchangeAll bs ++ rest) = csSafe c rest := by
  induction bs with
  | nil => rfl
  | cons b bs ih => simpa [exchangeAll, exchange, csSafe, Action.guarded, Action.csAfter] using ih

theorem keepsCs_cmd (op : Byte) : KeepsCs (cmd op) := by
  intro c rest hc h
  simpa [cmd, exchange, csSafe, Action.guarded, Action.csAfter, Action.drivesCs] using h .high nofun

theorem keepsCs_data (b : Byte) : KeepsCs (data b) := by
  intro c rest hc h
  simpa [data, exchange, csSafe, Action.guarded, Action.csAfter, Action.drivesCs] using h .high nofun

theorem keepsCs_cmdString (op : Byte) (bs : List Byte) : KeepsCs (cmdString op bs) := by
  intro c rest hc h
  simpa [cmdString, exchange, csSafe, csSafe_exchangeAll, Action.guarded, Action.csAfter, Action.drivesCs]
    using h .high nofun

theorem keepsCs_transferActions (op : Byte) (p : Payload) : KeepsCs (transferActions op p) := by
  cases p with
  | none => exact keepsCs_cmd op
  | some bs => exact keepsCs_cmdString op bs

theorem keepsCs_busyWait : KeepsCs busyWait := by
  intro c rest hc h
  simpa [busyWait, csSafe, Action.csAfter, hc] using h c hc

theorem keepsCs_areaActions (c : CommandTable) (xs xe ys ye : Nat) : KeepsCs (areaActions c xs xe ys ye) :=
  (((keepsCs_cmdString _ _).append (keepsCs_cmdString _ _)).append (keepsCs_cmdString _ _)).append
    (keepsCs_cmdString _ _)

theorem keepsCs_activateActions (c : CommandTable) (mask : Byte) : KeepsCs (activateActions c mask) :=
  (keepsCs_cmdString _ _).append (keepsCs_cmd _)

theorem keepsCs_loadImageActions (c : CommandTable) (buf : List Byte) : KeepsCs (loadImageActions c buf) :=
  keepsCs_busyWait.append (keepsCs_cmdString _ _)

theorem keepsCs_powerOnActions (c : CommandTable) : KeepsCs (powerOnActions c) :=
  (keepsCs_activateActions _ _).append keepsCs_busyWait

theorem keepsCs_updateFullActions (c : CommandTable) : KeepsCs (updateFullActions c) :=
  (keepsCs_activateActions _ _).append (keepsCs_cmd _)

/-- INIT's pins outside a transfer are driven with CS not low: its CS action drives CS high (R152, R153). -/
theorem keepsCs_initLevels (low high : Half) : KeepsCs (initIdleLevels ++ initResetPulse low high) := by
  intro c rest hc h
  simpa [initIdleLevels, initResetPulse, csSafe, Action.csAfter, Action.drivesCs, hc] using h .high nofun

theorem keepsCs_initActions (p : Profile) (s : State) : KeepsCs (initActions p s) :=
  (keepsCs_initLevels _ _).append <|
    (((((keepsCs_cmdString _ _).append (keepsCs_cmdString _ _)).append (keepsCs_cmdString _ _)).append
      (keepsCs_cmdString _ _)).append (keepsCs_cmdString _ _)).append (keepsCs_cmdString _ _)

theorem keepsCs_sequenceOf (i : Instr) (s : State) : KeepsCs (sequenceOf i s) := by
  cases i with
  | init p => exact keepsCs_initActions p s
  | setDisplayArea xs xe ys ye => exact keepsCs_areaActions _ _ _ _ _
  | loadFullLut | loadPartialLut => exact keepsCs_cmdString _ _
  | loadImage buf => exact keepsCs_loadImageActions _ _
  | powerOn => exact keepsCs_powerOnActions _
  | updateFull => exact keepsCs_updateFullActions _
  | updatePartial => exact (keepsCs_activateActions _ _).append (keepsCs_cmd _)
  | powerOff => exact keepsCs_activateActions _ _
  | showFullScreenImage buf =>
    exact (((((keepsCs_cmdString _ _).append (keepsCs_powerOnActions _)).append (keepsCs_areaActions _ _ _ _ _)).append
      (keepsCs_loadImageActions _ _)).append (keepsCs_updateFullActions _)).append (keepsCs_activateActions _ _)
  | loadPartialImage xs xw ys yh buf => exact (keepsCs_areaActions _ _ _ _ _).append (keepsCs_loadImageActions _ _)
  | writeCmd op => exact keepsCs_cmd op
  | writeData b => exact keepsCs_data b
  | writeCmdString op buf => exact keepsCs_cmdString op buf
  | _ => exact keepsCs_transferActions _ _

/-! ### The invariant (R31 to R40, R273) -/

/-- With no request executing the invariant is that of the registers, and CS not low. -/
theorem State.Inv.of_idle {s t : State} (hs : s.Inv) (hF : t.lutF.length = Config.lutLen)
    (hP : t.lutP.length = Config.lutLen) (hpar : t.params = s.params) (hsize : t.life = .ready → legalSize t.w t.h)
    (hq : t.seq = .idle) (hcs : t.csL ≠ .low) : t.Inv where
  lutF := hF
  lutP := hP
  holdLow := hpar ▸ hs.holdLow
  holdHigh := hpar ▸ hs.holdHigh
  commands := hpar ▸ hs.commands
  size := hsize
  idle _ := hcs
  exec _ hr := Seq.noConfusion (hq.symm.trans hr)

/-- A request has ended without writing an owned register or LIFE. -/
theorem State.Inv.ended {s t : State} (hs : s.Inv) (h : OwnedUnchanged s t) (hq : t.seq = .idle)
    (hcs : t.csL ≠ .low) : t.Inv :=
  hs.of_idle (h.lutF ▸ hs.lutF) (h.lutP ▸ hs.lutP) h.params
    (fun hl => by rw [h.w, h.h]; exact hs.size (h.life.symm.trans hl)) hq hcs

/-- What the request that executes must fit, taken apart (R33, R34, R151). -/
theorem executingWell_iff {s : State} {r : Running} :
    executingWell s r ↔ ∃ i, r.operation s.params.commands = .ok i ∧ fitsOperation i s ∧
      r.upc ≤ (sequenceOf i s).length ∧ (r.failing = none → csSafe s.csL (remaining i r s) = true) := by
  unfold executingWell
  cases r.operation s.params.commands with
  | error x => simp
  | ok i => simp

theorem OwnedUnchanged.fitsOperation {s t : State} (h : OwnedUnchanged s t) {i : Instr} (hi : fitsOperation i s) :
    fitsOperation i t := by
  cases i <;> simpa only [Machine.fitsOperation, h.life, h.w, h.h] using hi

/-- The request still executes, wherever it stands safely. -/
theorem State.Inv.waiting {s t : State} {r : Running} (hs : s.Inv) (h : OwnedUnchanged s t) (hq : t.seq = .exec r)
    (hr : executingWell t r) : t.Inv where
  lutF := h.lutF ▸ hs.lutF
  lutP := h.lutP ▸ hs.lutP
  holdLow := h.params ▸ hs.holdLow
  holdHigh := h.params ▸ hs.holdHigh
  commands := h.params ▸ hs.commands
  size hl := by rw [h.w, h.h]; exact hs.size (h.life.symm.trans hl)
  idle hidle := Seq.noConfusion (hidle.symm.trans hq)
  exec r' hr' := by
    cases hq.symm.trans hr'
    exact hr

/-- The whole sequence performed: INIT leaves READY with its legal profile's size (R150), the others as before. -/
theorem State.Inv.finished {s u : State} {r : Running} {i : Instr} (hs : s.Inv)
    (hop : r.operation s.params.commands = .ok i) (hfit : fitsOperation i s) (h : OwnedUnchanged s u)
    (hcs : u.csL ≠ .low) : (finishOf i u).Inv := by
  by_cases hi : ∃ p, i = .init p
  · obtain ⟨p, rfl⟩ := hi
    obtain ⟨-, hw, hh⟩ := hfit
    have hlegal : p.legal = true := (spellsHost_decodeRequest r.req _ hop).2
    simp only [Profile.legal, Bool.and_eq_true, decide_eq_true_eq] at hlegal
    obtain ⟨⟨⟨⟨⟨⟨hw1, hw2⟩, hh1⟩, hh2⟩, -⟩, -⟩, -⟩ := hlegal
    refine hs.of_idle (h.lutF ▸ hs.lutF) (h.lutP ▸ hs.lutP) h.params (fun _ => ?_) rfl hcs
    rw [← hw, ← h.w] at hw1 hw2
    rw [← hh, ← h.h] at hh1 hh2
    exact ⟨hw1, hw2, hh1, hh2⟩
  · rw [finishOf_of_ne_init (not_exists.mp hi)]
    exact hs.ended (t := complete u) ⟨h.life, h.w, h.h, h.lutF, h.lutP, h.refused, h.params, h.host⟩ rfl hcs

/-- A progress that stands safely is settled in a state that meets the invariant. -/
theorem State.Inv.settle {s : State} {r : Running} {i : Instr} {p : Progress} (hs : s.Inv) (hq : s.seq = .exec r)
    (hop : r.operation s.params.commands = .ok i) (hp : OwnedUnchanged s p.state)
    (hsafe : StandsSafely (remaining i r s) s p) : (settle (finishOf i) p).Inv := by
  obtain ⟨j, hj, hfit, hupc, -⟩ := executingWell_iff.mp (hs.exec r hq)
  cases hop.symm.trans hj
  cases p with
  | done u => exact hs.finished hop hfit hp hsafe
  | failed x u =>
    exact hs.ended (t := abort (.transportError x) u)
      ⟨hp.life, hp.w, hp.h, hp.lutF, hp.lutP, hp.refused, hp.params, hp.host⟩ rfl hsafe
  | waiting u =>
    obtain ⟨n, hn, hseq⟩ := hsafe
    replace hp : OwnedUnchanged s u := hp
    change u.Inv
    have hlen : r.upc + n ≤ (sequenceOf i u).length := by
      rw [remaining, List.length_drop] at hn
      rw [hp.sequenceOf_eq]
      omega
    have hopu : r.operation u.params.commands = .ok i := by rw [hp.params]; exact hop
    rw [hq] at hseq
    obtain ⟨hseq, hcs⟩ | ⟨x, hseq⟩ := hseq
    · refine hs.waiting hp hseq (executingWell_iff.mpr ⟨i, hopu, hp.fitsOperation hfit, hlen, fun _ => ?_⟩)
      rwa [remaining, hp.sequenceOf_eq, ← List.drop_drop]
    · exact hs.waiting hp hseq (executingWell_iff.mpr ⟨i, hopu, hp.fitsOperation hfit, hlen, nofun⟩)

/-- Going on with the request keeps the invariant. -/
theorem State.Inv.resume {s : State} {r : Running} (hs : s.Inv) (hq : s.seq = .exec r) :
    ∃ t, resume s = .next t ∧ t.Inv := by
  obtain ⟨i, hop, -, -, hcs⟩ := executingWell_iff.mp (hs.exec r hq)
  cases hf : r.failing with
  | some x =>
    exact ⟨_, resume_of_failing hq hop hf,
      hs.settle hq hop (restoreCS_standsAfter x s).owned (restoreCS_standsSafely _ x rfl)⟩
  | none =>
    exact ⟨_, resume_of_not_failing hq hop hf,
      hs.settle hq hop (runActions_owned _ s) (runActions_standsSafely _ s (hcs hf))⟩

/-- A request just begun meets the invariant: INIT has written its legal profile, the others run in READY. -/
theorem State.Inv.started {s : State} {i : Instr} {q : Request} (hs : s.Inv) (hq : s.seq = .idle)
    (henc : encode s.params.commands i = .request q) (hr : refuses i s = false) : (start i (accepted i s)).Inv := by
  have hw := wellFormed_of_not_refuses hr
  have hcs : csSafe s.csL (sequenceOf i (start i (accepted i s))) = true := (keepsCs_sequenceOf i _).csSafe (hs.idle hq)
  have hexec : fitsOperation i (start i (accepted i s)) →
      ∀ r, (start i (accepted i s)).seq = .exec r → executingWell (start i (accepted i s)) r := by
    rintro hfit _ ⟨⟩
    refine executingWell_iff.mpr ⟨i, ?_, hfit, Nat.zero_le _, fun _ => ?_⟩
    · exact operation_start (s := accepted i s) (by simpa using henc) (by simpa using hw) 0 none
    · simpa [remaining] using hcs
  by_cases hi : ∃ p, i = .init p
  · obtain ⟨p, rfl⟩ := hi
    have hlegal : p.legal = true := hw
    simp only [Profile.legal, Bool.and_eq_true, decide_eq_true_eq] at hlegal
    obtain ⟨⟨-, hF⟩, hP⟩ := hlegal
    exact ⟨hF, hP, hs.holdLow, hs.holdHigh, hs.commands, nofun, nofun, hexec ⟨rfl, rfl, rfl⟩⟩
  · have hi := not_exists.mp hi
    rw [refuses_of_ne_init hi] at hr
    rw [accepted_of_ne_init hi] at hexec ⊢
    have hlife : s.life = .ready := by
      cases hl : s.life with
      | ready => rfl
      | uninit => simp [hl] at hr
    have hfit : fitsOperation i (start i s) := by
      cases i with
      | init p => exact absurd rfl (hi p)
      | _ => exact hlife
    exact ⟨hs.lutF, hs.lutP, hs.holdLow, hs.holdHigh, hs.commands, hs.size, nofun, hexec hfit⟩

/-- Presenting a host operation keeps the invariant. -/
theorem State.Inv.presented {s : State} {i : Instr} {q : Request} (hs : s.Inv) (hq : s.seq = .idle)
    (henc : encode s.params.commands i = .request q) : ∃ t, presented i s = .next t ∧ t.Inv := by
  unfold Machine.presented
  split
  · exact ⟨_, rfl, hs.of_idle hs.lutF hs.lutP rfl hs.size hq (hs.idle hq)⟩
  · next hr =>
    split
    · exact ⟨_, rfl, hs.of_idle hs.lutF hs.lutP rfl hs.size rfl (hs.idle hq)⟩
    · exact (hs.started hq henc (by simpa using hr)).resume rfl

/-- Settles O47, by what taking a request and going on with one keep. -/
theorem stepKeepsInvariant : Obligations.StepKeepsInvariant := by
  intro s hs
  cases hq : s.seq with
  | exec r =>
    rw [step_of_exec hq]
    exact hs.resume hq
  | idle =>
    cases hh : s.host with
    | nil => exact ⟨s, step_of_idle_nil hq hh, hs⟩
    | cons r rest =>
      have hs' : State.Inv { s with host := rest } := hs.of_idle hs.lutF hs.lutP rfl hs.size hq (hs.idle hq)
      rw [step_of_idle_cons hq hh]
      obtain htake | ⟨i, henc, htake⟩ := takeRequest_cases (r := r) (s := { s with host := rest }) hq <;> rw [htake]
      · exact ⟨_, rfl, hs'.of_idle hs'.lutF hs'.lutP rfl hs'.size hq (hs.idle hq)⟩
      · exact hs'.presented hq henc

/-- Settles O48: the tables are thirty bytes, the holds and the command table the legal defaults, CS at X. -/
theorem resetMeetsInvariant : Obligations.ResetMeetsInvariant where
  lutF := rfl
  lutP := rfl
  holdLow := by decide
  holdHigh := by decide
  commands := by decide
  size := nofun
  idle _ := by decide
  exec := nofun

/-! ### What the engine only writes decides none of its actions (R30, R42, R44, R45) -/

theorem latch_unobserved (s : State) (e : Event) : (s.latch e).unobserved = s.unobserved := by
  cases e with
  | pin p v a => cases p <;> rfl
  | _ => rfl

theorem record_unobserved (s : State) (e : Event) : (s.record e).unobserved = s.unobserved := latch_unobserved s e

/-- Events change nothing that the engine reads. -/
theorem recordAll_unobserved (ev : List Event) (s : State) : (s.recordAll ev).unobserved = s.unobserved := by
  induction ev generalizing s with
  | nil => rfl
  | cons e es ih => rw [recordAll_cons, ih, record_unobserved]

/-- The same events lead from `s` to `t` and from `s'` to `t'`, and `t` and `t'` agree on what the engine reads. -/
def SameMove (s s' t t' : State) : Prop :=
  t'.unobserved = t.unobserved ∧ ∃ ev, t.trace = s.trace ++ ev ∧ t'.trace = s'.trace ++ ev

theorem SameMove.finishOf {s s' t t' : State} (h : SameMove s s' t t') (i : Instr) :
    SameMove s s' (finishOf i t) (finishOf i t') := by
  obtain ⟨hu, ev, ht, ht'⟩ := h
  have hfin (u : State) : (Machine.finishOf i u).unobserved = (Machine.finishOf i u.unobserved).unobserved := by
    cases i <;> rfl
  have htrace (u : State) : (Machine.finishOf i u).trace = u.trace := by cases i <;> rfl
  exact ⟨by rw [hfin, hu, ← hfin], ev, by rw [htrace, ht], by rw [htrace, ht']⟩

theorem SameMove.abort {s s' t t' : State} (h : SameMove s s' t t') (st : Status) :
    SameMove s s' (abort st t) (abort st t') :=
  ⟨congrArg (fun u : State => { u with seq := .idle }) h.1, h.2⟩

section
variable {s s' : State} (h : s.unobserved = s'.unobserved)
include h

theorem params_of_unobserved : s'.params = s.params := (congrArg State.params h).symm

theorem seq_of_unobserved : s'.seq = s.seq := (congrArg State.seq h).symm

theorem env_of_unobserved : s'.env = s.env := (congrArg State.env h).symm

theorem host_of_unobserved : s'.host = s.host := (congrArg State.host h).symm

theorem remaining_of_unobserved (i : Instr) (r : Running) : remaining i r s' = remaining i r s := by
  rw [remaining, remaining, sequenceOf_congr (s := s) (t := s') i (congrArg State.w h).symm (congrArg State.h h).symm
    (congrArg State.lutF h).symm (congrArg State.lutP h).symm (params_of_unobserved h)]

theorem refuses_of_unobserved (i : Instr) : refuses i s' = refuses i s := by
  have hu (u : State) : refuses i u = refuses i u.unobserved := by cases i <;> rfl
  rw [hu s', ← h, ← hu]

theorem checkOf_of_unobserved (i : Instr) : checkOf i s' = checkOf i s := by
  have hu (u : State) : checkOf i u = checkOf i u.unobserved := by cases i <;> rfl
  rw [hu s', ← h, ← hu]

theorem start_of_unobserved (i : Instr) :
    (start i (accepted i s)).unobserved = (start i (accepted i s')).unobserved := by
  have hu (u : State) : (start i (accepted i u)).unobserved = (start i (accepted i u.unobserved)).unobserved := by
    cases i <;> rfl
  rw [hu s, h, ← hu]

/-- The same events happen, and SEQ comes to the same. -/
theorem moved_sameMove (ev : List Event) (rest : Env) (q : Seq) :
    SameMove s s' (s.moved ev rest q) (s'.moved ev rest q) := by
  have hu (u : State) : (u.moved ev rest q).unobserved = { u.unobserved with env := rest, seq := q } :=
    congrArg (fun v : State => { v with seq := q }) (recordAll_unobserved ev { u with env := rest })
  exact ⟨by rw [hu, hu, h], ev, by simp [State.moved], by simp [State.moved]⟩

/-- RestoreCS makes the same move. -/
theorem settle_restoreCS_sameMove (i : Instr) (x : ErrVal) :
    SameMove s s' (settle (finishOf i) (restoreCS x s)) (settle (finishOf i) (restoreCS x s')) := by
  have henv := env_of_unobserved h
  cases hp : s.env.pins with
  | nil =>
    simp only [restoreCS, henv, hp, settle, seq_of_unobserved h]
    exact moved_sameMove h [] s.env _
  | cons a rest =>
    simp only [restoreCS, henv, hp, settle]
    exact (moved_sameMove h [.pin .cs true a] { s.env with pins := rest } .idle).abort (.transportError x)

/-- A sequence of port actions makes the same move: what happens is the environment's (R7). -/
theorem settle_runActions_sameMove (i : Instr) (acts : List Action) :
    SameMove s s' (settle (finishOf i) (runActions acts s)) (settle (finishOf i) (runActions acts s')) := by
  have hseq := seq_of_unobserved h
  obtain ⟨ev, rest, hc, he⟩ | ⟨x, ev, rest, hb, he⟩ | ⟨ev, rest, n, hst, he⟩ | ⟨x, ev, rest, n, hr, he⟩ :=
    trace_exists acts s.env <;> have he' := (env_of_unobserved h).trans he
  · rw [runActions_of_carries hc he, runActions_of_carries hc he', after_eq_moved, after_eq_moved, hseq]
    exact (moved_sameMove h ev rest _).finishOf i
  · obtain ⟨n, hn⟩ := runActions_of_breaks hb he
    obtain ⟨n', hn'⟩ := runActions_of_breaks hb he'
    rw [hn, hn']
    exact (moved_sameMove h ev rest .idle).abort (.transportError x)
  · rw [runActions_of_stalls hst he, runActions_of_stalls hst he', after_eq_moved, after_eq_moved, hseq]
    exact moved_sameMove h ev rest _
  · rw [runActions_of_restoring hr he, runActions_of_restoring hr he', hseq]
    exact moved_sameMove h ev rest _

theorem resume_sameMove {t : State} {r : Running} (hq : s.seq = .exec r) (ht : resume s = .next t) :
    ∃ t', resume s' = .next t' ∧ SameMove s s' t t' := by
  have hq' := (seq_of_unobserved h).trans hq
  have hpar := params_of_unobserved h
  cases hop : r.operation s.params.commands with
  | error x => rw [resume_of_error hq hop] at ht; cases ht
  | ok i =>
    have hop' : r.operation s'.params.commands = .ok i := by rw [hpar, hop]
    cases hf : r.failing with
    | some x =>
      rw [resume_of_failing hq hop hf] at ht
      cases ht
      exact ⟨_, resume_of_failing hq' hop' hf, settle_restoreCS_sameMove h i x⟩
    | none =>
      rw [resume_of_not_failing hq hop hf] at ht
      cases ht
      refine ⟨_, resume_of_not_failing hq' hop' hf, ?_⟩
      rw [remaining_of_unobserved h]
      exact settle_runActions_sameMove h i _

theorem presented_sameMove {i : Instr} {t : State} (ht : presented i s = .next t) :
    ∃ t', presented i s' = .next t' ∧ SameMove s s' t t' := by
  unfold presented
  rw [refuses_of_unobserved h, checkOf_of_unobserved h]
  obtain ⟨hr, rfl⟩ | ⟨hr, st, hc, rfl⟩ | ⟨hr, hc, ht⟩ := presented_cases ht
  · exact ⟨refuse s', by rw [hr]; rfl, h.symm, [], by simp, by simp⟩
  · exact ⟨abort st s', by rw [hr, hc]; rfl, SameMove.abort ⟨h.symm, [], by simp, by simp⟩ st⟩
  · obtain ⟨t', ht', hmove⟩ := resume_sameMove (start_of_unobserved h i) rfl ht
    exact ⟨t', by rw [hr, hc]; exact ht', by simpa [SameMove] using hmove⟩

theorem takeRequest_sameMove {r : Request} {t : State} (hq : s.seq = .idle) (ht : takeRequest r s = .next t) :
    ∃ t', takeRequest r s' = .next t' ∧ SameMove s s' t t' := by
  have hpar := params_of_unobserved h
  cases hd : decodeRequest s.params.commands r with
  | error x =>
    simp only [takeRequest, hpar, hd] at ht ⊢
    cases ht
    exact ⟨refuse s', rfl, h.symm, [], by simp, by simp⟩
  | ok i =>
    obtain ⟨⟨q, henc⟩, -⟩ := spellsHost_decodeRequest r i hd
    rw [takeRequest_of_decodes hd, exec_of_idle henc hq] at ht
    rw [takeRequest_of_decodes (by rw [hpar, hd]), exec_of_idle (by rw [hpar, henc]) ((seq_of_unobserved h).trans hq)]
    exact presented_sameMove h ht

end

/-- Settles O57, by what taking a request and going on with one read. -/
theorem engineIgnoresWhatItOnlyWrites : Obligations.EngineIgnoresWhatItOnlyWrites := by
  intro s s' t h ht
  have hmove : ∃ t', step s' = .next t' ∧ SameMove s s' t t' := by
    have hq' := seq_of_unobserved h
    have hh' := host_of_unobserved h
    cases hq : s.seq with
    | exec r =>
      rw [step_of_exec hq] at ht
      rw [step_of_exec (hq'.trans hq)]
      exact resume_sameMove h hq ht
    | idle =>
      cases hh : s.host with
      | nil =>
        rw [step_of_idle_nil hq hh] at ht
        cases ht
        exact ⟨s', step_of_idle_nil (hq'.trans hq) (hh'.trans hh), h.symm, [], by simp, by simp⟩
      | cons r rest =>
        rw [step_of_idle_cons hq hh] at ht
        rw [step_of_idle_cons (hq'.trans hq) (hh'.trans hh)]
        exact takeRequest_sameMove (s := { s with host := rest }) (s' := { s' with host := rest })
          (congrArg (fun u : State => { u with host := rest }) h) hq ht
  obtain ⟨t', hstep, hu, ev, htr, htr'⟩ := hmove
  exact ⟨t', ev, hstep, hu, htr, htr'⟩

/-! ### PHASE and the operations that are no refresh (R45, R237, R238) -/

/-- No MasterActivation byte of the request that executes is a refresh operation's (R238). -/
def NoRefresh (q : Seq) : Prop :=
  match q with
  | .idle => True
  | .exec r => ∀ mask, refreshOf (descOp r.req.desc) mask = none

theorem refresh_of_noRefresh {s : State} (h : NoRefresh s.seq) : s.context.refresh = none := by
  unfold State.context
  cases hq : s.seq with
  | idle => rfl
  | exec r =>
    rw [hq] at h
    exact h _

theorem exchanged_phase {c : Context} (hc : c.refresh = none) (g : Ghost) (dc : Level) (i : Interval) (b : Byte) :
    (g.exchanged c dc i b).phase = g.phase := by
  cases dc <;> simp [Ghost.exchanged, hc]

theorem intervalEnded_phase (g : Ghost) (c : CommandTable) : (g.intervalEnded c).phase = g.phase := by
  unfold Ghost.intervalEnded
  split
  · rfl
  · split <;> rfl

theorem observePin_phase (g : Ghost) (c : CommandTable) (p : Pin) (v : Bool) (a : PinAnswer) :
    (g.observePin c p v a).phase = g.phase := by
  cases p with
  | rst => cases v <;> rfl
  | dc => cases a <;> rfl
  | cs =>
    cases a with
    | err x => rfl
    | ok =>
      cases v with
      | false => rfl
      | true => exact intervalEnded_phase g c

theorem observeSend_phase (g : Ghost) (c : Context) (cs dc : Level) (b : Byte) (a : SendAnswer) :
    (g.observeSend c cs dc b a).phase = g.phase := by
  cases a with
  | ok =>
    simp only [Ghost.observeSend, Ghost.noteSent]
    split <;> rfl
  | wouldblock => rfl
  | err x => rfl

theorem observeRead_phase {c : Context} (hc : c.refresh = none) (g : Ghost) (dc : Level) (a : ReadAnswer) :
    (g.observeRead c dc a).phase = g.phase := by
  cases a with
  | ok b =>
    simp only [Ghost.observeRead, Ghost.observeByteRead]
    split
    · rfl
    · split
      · rfl
      · exact exchanged_phase hc g dc _ _
  | wouldblock => rfl
  | err x => rfl

/-- An event of such a request moves PHASE only if it is a sample of BUSY. -/
theorem record_phase {s : State} {e : Event} (h : NoRefresh s.seq) (he : ∀ a, e ≠ .poll a) :
    (s.record e).ghost.phase = s.ghost.phase := by
  cases e with
  | pin p v a => exact observePin_phase _ _ _ _ _
  | send b a => exact observeSend_phase _ _ _ _ _ _
  | read a => exact observeRead_phase (refresh_of_noRefresh h) _ _ _
  | poll a => exact absurd rfl (he a)
  | delay ms => rfl

theorem recordAll_phase {ev : List Event} {s : State} (h : NoRefresh s.seq) (hev : ∀ e ∈ ev, ∀ a, e ≠ .poll a) :
    (s.recordAll ev).ghost.phase = s.ghost.phase := by
  induction ev generalizing s with
  | nil => rfl
  | cons e es ih =>
    obtain ⟨he, hes⟩ := List.forall_mem_cons.mp hev
    rw [recordAll_cons, ih (by rwa [record_seq]) hes, record_phase h he]

/-- The window, table and raw operations: SET_DISPLAY_AREA, the two table loads and the three raw ones (R45). -/
def leavesPhase (i : Instr) : Bool :=
  match i with
  | .setDisplayArea _ _ _ _ => true
  | .loadFullLut => true
  | .loadPartialLut => true
  | .writeCmd _ => true
  | .writeData _ => true
  | .writeCmdString _ _ => true
  | _ => false

theorem start_noRefresh {i : Instr} (h : leavesPhase i = true) (s : State) : NoRefresh (start i s).seq := by
  intro mask
  cases i with
  | setDisplayArea | loadFullLut | loadPartialLut | writeCmd | writeData | writeCmdString =>
    simp [requestOf, encode, bareRequest, refreshOf]
  | _ => exact absurd h Bool.false_ne_true

/-- Such an operation is a host operation other than INIT. -/
theorem host_of_leavesPhase {i : Instr} (h : leavesPhase i = true) (c : CommandTable) :
    encode c i = .request (requestOf c i) ∧ ∀ p, i ≠ .init p := by
  cases i with
  | setDisplayArea | loadFullLut | loadPartialLut | writeCmd | writeData | writeCmdString => exact ⟨rfl, nofun⟩
  | _ => exact absurd h Bool.false_ne_true

theorem settle_complete_ghost (p : Progress) : (settle complete p).ghost = p.state.ghost := by cases p <;> rfl

theorem settle_complete_trace (p : Progress) : (settle complete p).trace = p.state.trace := by cases p <;> rfl

/-- Settles O56: none of their events samples BUSY, and none of their MasterActivations is a refresh operation's. -/
theorem otherOperationsKeepPhase : Obligations.OtherOperationsKeepPhase := by
  intro i s t hi h
  have hleaves : leavesPhase i = true := by
    obtain ⟨xs, xe, ys, ye, rfl⟩ | rfl | rfl | ⟨op, rfl⟩ | ⟨b, rfl⟩ | ⟨op, buf, rfl⟩ := hi <;> rfl
  obtain ⟨henc, hne⟩ := host_of_leavesPhase hleaves s.params.commands
  obtain ⟨ev, htrace, -, hpoll⟩ := onlySomeOperationsTouchRstAndBusy i s t h
  rw [exec_of_idle henc (idle_of_exec_next henc h)] at h
  obtain ⟨-, rfl⟩ | ⟨-, st, -, rfl⟩ | ⟨hr, -, h⟩ := presented_cases h
  · rfl
  · rfl
  · rw [accepted_of_ne_init hne, resume_start henc (wellFormed_of_not_refuses hr), finishOf_of_ne_init hne] at h
    cases h
    obtain ⟨ev', rest, q, hst⟩ := runActions_standsAfter (sequenceOf i s) (start i s)
    rw [settle_complete_trace, hst] at htrace
    rw [settle_complete_ghost, hst]
    have hev : ev' = ev := by simpa [State.moved] using htrace
    subst hev
    have hnopoll : ∀ e ∈ ev', ∀ a, e ≠ .poll a := by
      apply hpoll <;> intros <;> rintro rfl <;> exact absurd hleaves Bool.false_ne_true
    have hphase := recordAll_phase (s := { start i s with env := rest }) (start_noRefresh hleaves s) hnopoll
    exact hphase

/-! ### Single events (R42, R47, R238, R260) -/

/-- Settles O39: the sample writes no latch, and the ghost state moves by the cases of `Phase.polledLow`. -/
theorem pollLowEndsSequence : Obligations.PollLowEndsSequence := by
  intro s
  simp only [State.record, latch_poll, Ghost.observe, Ghost.observePoll]
  cases s.ghost.phase <;> rfl

/-- Settles O40: an event is recorded by its latch, which is written pin by pin. -/
theorem pinEventsWriteLatches : Obligations.PinEventsWriteLatches := by
  intro s v a
  refine ⟨rfl, rfl, rfl, rfl, rfl, rfl, rfl, rfl, rfl, rfl, rfl, latchLevel_err true, fun e he => ?_⟩
  cases e with
  | pin p v a => exact absurd rfl (he p v a)
  | _ => exact ⟨rfl, rfl, rfl⟩

/-! ### What a command transfer leaves of the ghost state (R45, R46, R47, R238) -/

/-- Settles O35, by the distinct opcodes of a legal table and the reader's law `join9_of_split9`. -/
theorem commandsProgramShadow : Obligations.CommandsProgramShadow := by
  intro sh c hc
  have hne := CommandTable.opcode_inj hc
  refine ⟨fun xs xe => ?_, fun ys ye hys hye => ?_, fun x => ?_, fun y hy => ?_, fun t ht => ?_, fun m => ?_, ?_⟩
  · simp [Shadow.program]
  · obtain ⟨a, b, hab, hys⟩ := join9_of_split9 hys
    obtain ⟨a', b', hab', hye⟩ := join9_of_split9 hye
    simp [Shadow.program, hne, hab, hab', hys, hye]
  · simp [Shadow.program, hne]
  · obtain ⟨a, b, hab, hy⟩ := join9_of_split9 hy
    simp [Shadow.program, hne, hab, hy]
  · simp [Shadow.program, hne, ht, Config.lutLen]
  · simp [Shadow.program, hne]
  · intro op payload hwx hwy hcx hcy hlut hupd
    simp only [Shadow.program, hwx, hwy, hcx, hcy, hlut, hupd, if_false]

/-- An exchanged MasterActivation byte moves PHASE to the state of its refresh operation, if it has one (R238). -/
theorem afterOpcode_masterActivation (ph : Phase) (c : Context) :
    ph.afterOpcode c (c.commands.opcode .masterActivation) = c.refresh.elim ph Phase.activated := by
  unfold Phase.afterOpcode
  rw [if_pos rfl]
  cases c.refresh <;> rfl

/-- Settles O38: the transfer's opcode is MasterActivation, and the context's refresh goes by the request's OP. -/
theorem activationMovesPhase : Obligations.ActivationMovesPhase := by
  intro s r hq
  constructor
  · have hphase : (s.ghost.afterTransfer s.context (s.opc .masterActivation) []).phase =
        (refreshOf (descOp r.req.desc) s.ghost.shadow.updMask).elim s.ghost.phase Phase.activated := by
      have hafter := afterOpcode_masterActivation s.ghost.phase s.context
      simp only [State.context, hq] at hafter ⊢
      exact hafter
    rw [hphase]
    simp only [refreshOf, refreshOfMask, apply_ite fun f : Option Refresh => f.elim s.ghost.phase Phase.activated]
    rfl
  · simp only [Ghost.afterTransfer, Ghost.commandByte, context_commands, decide_true, Bool.true_and]
    rfl

/-! ### Controller commands to their end (R110, R270, R272) -/

/-- Settles O36: the command is its bare transfer. -/
theorem bareCommandsComplete : Obligations.BareCommandsComplete := by
  intro k r s ev rest hq hf ha
  rw [exec_eq_commandTransfer]
  exact commandTransfer_of_carries hq hf ha

theorem length_cmdString (op : Byte) (bs : List Byte) : (cmdString op bs).length = 6 + 2 * bs.length := by
  simp [cmdString, exchange, exchangeAll]
  omega

/-- Settles O37: the command is its transfer with the payload. -/
theorem payloadCommandsComplete : Obligations.PayloadCommandsComplete := by
  intro k payload r s ev rest hq hf ha
  rw [exec_eq_commandTransfer, commandTransfer_of_carries (p := some payload) hq hf ha, transferActions,
    length_cmdString]
  rfl

/-! ### Host operations of one command transfer to their end (R190, R191, R270, R272) -/

/-- No Nop byte of such an operation is an update's own (R352). -/
theorem start_ownNop {i : Instr} (h : leavesPhase i = true) (s : State) : (start i s).context.ownNop = false := by
  cases i with
  | setDisplayArea | loadFullLut | loadPartialLut | writeCmd | writeData | writeCmdString =>
    simp [State.context, requestOf, encode, bareRequest]
  | _ => exact absurd h Bool.false_ne_true

/-- The ghost state after a command transfer that is no refresh operation's: PHASE and LUT_MISMATCH stay (R45, R355). -/
theorem afterTransfer_of_leavesPhase {i : Instr} (h : leavesPhase i = true) (s : State) (op : Byte)
    (payload : List Byte) : s.ghost.afterTransfer (start i s).context op payload =
      { s.ghost with
        interval := none
        updWindow := s.ghost.updWindow ||
          (decide (op = s.opc .masterActivation) && hasPatternStage s.ghost.shadow.updMask)
        shadow := { s.ghost.shadow with ramOpen := some (decide (op = s.opc .writeRam)) }.program
          s.params.commands op payload
        hazSrc := s.ghost.hazSrc || (s.ghost.updWindow && isHazardousCommand s.params.commands op)
        hazStrict := s.ghost.hazStrict || s.ghost.updWindow } := by
  have hrefresh := refresh_of_noRefresh (s := start i s) (start_noRefresh h s)
  simp [Ghost.afterTransfer, Ghost.commandByte, Phase.afterOpcode, lutMismatches, hrefresh, start_ownNop h s]

/-- Such an operation, if it is one command transfer the environment answers to its end. -/
theorem exec_transfer_of_carries {i : Instr} {s : State} {op : Byte} {p : Payload} {ev : List Event} {rest : Env}
    (h : leavesPhase i = true) (hw : i.wellFormed s.params.commands = true) (hs : s.accepting)
    (hc : checkOf i s = none) (hacts : sequenceOf i s = transferActions op p)
    (ha : s.answers (transferActions op p) ev rest) :
    exec i s = .next
      { s with
        status := .ok, csL := .high, dcL := if p.isSome then .high else .low, trace := s.trace ++ ev, env := rest
        ghost := s.ghost.afterTransfer (start i s).context op (p.getD []) } := by
  obtain ⟨henc, hne⟩ := host_of_leavesPhase h s.params.commands
  rw [← hacts] at ha
  have hideal := ideal_transfer (start i s) op p
  rw [← hacts] at hideal
  rw [exec_eq_hostOperation henc hne, hostOperation_of_carries hw hs hc ha hideal]
  simp [State.afterTransfer, hs.2]

/-- Settles O32: the operation is its bare transfer. -/
theorem writeCmdCompletes : Obligations.WriteCmdCompletes := by
  intro op s ev rest hs hop ha
  have hw : (Instr.writeCmd op).wellFormed s.params.commands = true := by simpa [Instr.wellFormed] using hop
  rw [exec_transfer_of_carries (i := .writeCmd op) (p := none) rfl hw hs rfl rfl ha,
    afterTransfer_of_leavesPhase (i := .writeCmd op) rfl]
  rfl

/-- Settles O34: the operation is its transfer with the payload. -/
theorem writeCmdStringCompletes : Obligations.WriteCmdStringCompletes := by
  intro op payload s ev rest hs hop ha
  have hw : (Instr.writeCmdString op payload).wellFormed s.params.commands = true := by
    simpa [Instr.wellFormed] using hop
  rw [exec_transfer_of_carries (i := .writeCmdString op payload) (p := some payload) rfl hw hs rfl rfl ha,
    afterTransfer_of_leavesPhase (i := .writeCmdString op payload) rfl]
  rfl

/-- The ghost state after a whole table has been loaded (R46, R190). -/
theorem afterTransfer_writeLutRegister {i : Instr} (h : leavesPhase i = true) {s : State}
    (hc : s.params.commands.legal = true) {table : List Byte} (ht : table.length = 30) :
    s.ghost.afterTransfer (start i s).context (s.opc .writeLutRegister) table =
      { s.ghost with
        interval := none
        shadow := { s.ghost.shadow with lutLoaded := some table, ramOpen := some false }
        hazStrict := s.ghost.hazStrict || s.ghost.updWindow } := by
  obtain ⟨-, -, -, -, hlut, -, -⟩ :=
    commandsProgramShadow { s.ghost.shadow with ramOpen := some false } s.params.commands hc
  rw [afterTransfer_of_leavesPhase h]
  simp [isHazardousCommand, CommandTable.opcode_inj hc, hlut table ht]

/-- Settles O21: each load is the transfer of its owned table. -/
theorem lutLoadsComplete : Obligations.LutLoadsComplete := by
  intro s ev rest hs hc
  refine ⟨fun ht ha => ?_, fun ht ha => ?_⟩
  · rw [exec_transfer_of_carries (i := .loadFullLut) (p := some s.lutF) rfl rfl hs rfl rfl ha, Option.getD_some,
      afterTransfer_writeLutRegister (i := .loadFullLut) rfl hc ht]
    rfl
  · rw [exec_transfer_of_carries (i := .loadPartialLut) (p := some s.lutP) rfl rfl hs rfl rfl ha, Option.getD_some,
      afterTransfer_writeLutRegister (i := .loadPartialLut) rfl hc ht]
    rfl

end Sys2Proof.Machine
end

section
/-! PROOFS. The statement about the memory of the machine (spec/20_memory.md): the only bytes it reads are those a READ
returns, and forgetting them commutes with everything a step is made of. -/

namespace Sys2Proof.Machine

/-! ### The bytes read, forgotten (R80, R262) -/

/-- The environment with the bytes of its READ answers forgotten. -/
def Env.forgetReads (env : Env) : Env := { env with reads := env.reads.map ReadAnswer.forget }

/-- The progress with every byte read, past and to come, forgotten. -/
def Progress.forgetReads (p : Progress) : Progress :=
  match p with
  | .done s => .done s.forgetReads
  | .waiting s => .waiting s.forgetReads
  | .failed x s => .failed x s.forgetReads

@[simp] theorem forgetReads_params (s : State) : s.forgetReads.params = s.params := rfl
@[simp] theorem forgetReads_env (s : State) : s.forgetReads.env = s.env.forgetReads := rfl
@[simp] theorem forgetReads_pins (env : Env) : env.forgetReads.pins = env.pins := rfl

theorem forgetReads_answer (e : Event) (env : Env) :
    (Env.answer e env).forgetReads = Env.answer e.forgetRead env.forgetReads := by
  cases e <;> rfl

/-! An event performs, retries or fails an action by its call and the kind of its answer, never by the byte read. -/

theorem performedBy_forgetRead (a : Action) (e : Event) : a.performedBy e.forgetRead = a.performedBy e := by
  cases e with
  | read answer => cases a <;> cases answer <;> rfl
  | _ => rfl

theorem retriedBy_forgetRead (a : Action) (e : Event) : a.retriedBy e.forgetRead = a.retriedBy e := by
  cases e with
  | read answer => cases a <;> cases answer <;> rfl
  | _ => rfl

theorem failedBy_forgetRead (a : Action) (x : ErrVal) (e : Event) : a.failedBy x e.forgetRead = a.failedBy x e := by
  cases e with
  | read answer => cases a <;> cases answer <;> rfl
  | _ => rfl

theorem unanswered_forgetReads (a : Action) (env : Env) : a.unanswered env.forgetReads = a.unanswered env := by
  cases a with
  | read => exact List.isEmpty_map
  | _ => rfl

/-! ### A recorded event -/

/-- The ghost state notes that a byte was read, not which (R46, R262). -/
theorem observe_forgetRead (g : Ghost) (c : Context) (cs dc : Level) (e : Event) :
    g.observe c cs dc e.forgetRead = g.observe c cs dc e := by
  cases e with
  | read answer => cases answer <;> rfl
  | _ => rfl

theorem forgetReads_latch (s : State) (e : Event) : (s.latch e).forgetReads = s.forgetReads.latch e.forgetRead := by
  cases e with
  | pin p v a => cases p <;> rfl
  | _ => rfl

theorem forgetReads_record (s : State) (e : Event) :
    (s.record e).forgetReads = s.forgetReads.record e.forgetRead := by
  change { (s.latch e).forgetReads with
    ghost := s.ghost.observe s.context s.csL s.dcL e
    trace := (s.trace ++ [e]).map Event.forgetRead } = _
  rw [forgetReads_latch, List.map_append, ← observe_forgetRead]
  rfl

theorem forgetReads_record_withEnv (s : State) (env : Env) (e : Event) :
    (State.record { s with env := env } e).forgetReads =
      State.record { s.forgetReads with env := env.forgetReads } e.forgetRead :=
  forgetReads_record { s with env := env } e

/-! ### Port actions -/

theorem restoreCS_forgetReads (x : ErrVal) (s : State) :
    restoreCS x s.forgetReads = (restoreCS x s).forgetReads := by
  cases hp : s.env.pins with
  | nil =>
    simp only [restoreCS, forgetReads_env, forgetReads_pins, hp]
    rfl
  | cons a rest =>
    simp only [restoreCS, forgetReads_env, forgetReads_pins, hp, Progress.forgetReads, forgetReads_record_withEnv]
    rfl

theorem afterFailure_forgetReads (a : Action) (x : ErrVal) (s : State) :
    afterFailure a x s.forgetReads = (afterFailure a x s).forgetReads := by
  unfold afterFailure
  split
  · exact restoreCS_forgetReads x s
  · rfl

/-- A sequence of port actions comes to the same, whatever bytes its READs return: each call has the same effect. -/
theorem runActions_forgetReads (acts : List Action) (s : State) :
    runActions acts s.forgetReads = (runActions acts s).forgetReads := by
  have answered {s : State} {e : Event} {env : Env} (hs : s.env = Env.answer e env) :
      s.forgetReads.env = Env.answer e.forgetRead env.forgetReads := by
    rw [forgetReads_env, hs, forgetReads_answer]
  refine runActions_induction (motive := fun acts s p => runActions acts s.forgetReads = p.forgetReads)
    (fun s => rfl) ?_ ?_ ?_ ?_ acts s
  · intro a as s e env p h hs ih
    rw [← performedBy_forgetRead] at h
    rw [runActions_performed h (answered hs), ← forgetReads_record_withEnv]
    exact ih
  · intro a as s e env p h hs ih
    rw [← retriedBy_forgetRead] at h
    rw [runActions_retried h (answered hs), ← forgetReads_record_withEnv]
    exact ih
  · intro a as s e env x h hs
    rw [← failedBy_forgetRead] at h
    rw [runActions_cons, perform_of_failedBy h (answered hs), ← forgetReads_record_withEnv]
    exact afterFailure_forgetReads a x _
  · intro a as s h
    rw [← unanswered_forgetReads] at h
    rw [runActions_cons, perform_of_unanswered (s := s.forgetReads) h]
    rfl

/-! ### The request that executes -/

theorem remaining_forgetReads (i : Instr) (r : Running) (s : State) :
    remaining i r s.forgetReads = remaining i r s := by
  rw [remaining, remaining, sequenceOf_congr (s := s) (t := s.forgetReads) i rfl rfl rfl rfl rfl]

theorem settle_finishOf_forgetReads (i : Instr) (p : Progress) :
    settle (finishOf i) p.forgetReads = (settle (finishOf i) p).forgetReads := by
  cases p with
  | done s => cases i <;> rfl
  | _ => rfl

theorem resume_forgetReads (s : State) : resume s.forgetReads = mapNext State.forgetReads (resume s) := by
  cases hq : s.seq with
  | idle =>
    rw [resume_idle hq, resume_idle (s := s.forgetReads) hq]
    rfl
  | exec r =>
    cases hop : r.operation s.params.commands with
    | error x =>
      rw [resume_of_error hq hop, resume_of_error (s := s.forgetReads) hq hop]
      rfl
    | ok i =>
      cases hf : r.failing with
      | some x =>
        rw [resume_of_failing hq hop hf, resume_of_failing (s := s.forgetReads) hq hop hf, restoreCS_forgetReads,
          settle_finishOf_forgetReads]
        rfl
      | none =>
        rw [resume_of_not_failing hq hop hf, resume_of_not_failing (s := s.forgetReads) hq hop hf,
          remaining_forgetReads, runActions_forgetReads, settle_finishOf_forgetReads]
        rfl

/-! ### A request taken -/

theorem refuses_forgetReads (i : Instr) (s : State) : refuses i s.forgetReads = refuses i s := by cases i <;> rfl

theorem checkOf_forgetReads (i : Instr) (s : State) : checkOf i s.forgetReads = checkOf i s := by cases i <;> rfl

theorem start_accepted_forgetReads (i : Instr) (s : State) :
    start i (accepted i s.forgetReads) = (start i (accepted i s)).forgetReads := by cases i <;> rfl

theorem presented_forgetReads (i : Instr) (s : State) :
    presented i s.forgetReads = mapNext State.forgetReads (presented i s) := by
  unfold presented
  rw [refuses_forgetReads, checkOf_forgetReads, start_accepted_forgetReads, resume_forgetReads]
  split
  · rfl
  · cases checkOf i s <;> rfl

theorem takeRequest_forgetReads (r : Request) {s : State} (hq : s.seq = .idle) :
    takeRequest r s.forgetReads = mapNext State.forgetReads (takeRequest r s) := by
  cases hd : decodeRequest s.params.commands r with
  | error x =>
    simp only [takeRequest, forgetReads_params, hd]
    rfl
  | ok i =>
    obtain ⟨⟨q, henc⟩, -⟩ := spellsHost_decodeRequest r i hd
    rw [takeRequest_of_decodes hd, exec_of_idle henc hq, takeRequest_of_decodes (s := s.forgetReads) hd,
      exec_of_idle (s := s.forgetReads) henc hq, presented_forgetReads]

/-- Settles O58: taking a request and going on with one both commute with forgetting the bytes read. -/
theorem bytesReadHaveNoEffect : Obligations.BytesReadHaveNoEffect := by
  intro s
  cases hq : s.seq with
  | exec r => rw [step_of_exec hq, step_of_exec (s := s.forgetReads) hq, resume_forgetReads]
  | idle =>
    cases hh : s.host with
    | nil =>
      rw [step_of_idle_nil hq hh, step_of_idle_nil (s := s.forgetReads) hq hh]
      rfl
    | cons r rest =>
      rw [step_of_idle_cons hq hh, step_of_idle_cons (s := s.forgetReads) hq hh]
      exact takeRequest_forgetReads r (s := { s with host := rest }) hq

end Sys2Proof.Machine
end

section
/-! PROOFS. The statements about the encodings (spec/30_encoding.md): the round trip both ways, the illegal requests,
the command table, the payloads and the transfers. Before each stand the facts it needs. -/

namespace Sys2Proof

open Machine

/-! ### Every instruction is decoded from its encoding (R104, R110) -/

/-- A controller command is spelled exactly when CATALOG holds its opcode (R122). -/
theorem wellFormed_instr (c : CommandTable) (k : Command) (p : Payload) :
    (k.instr p).wellFormed c = c.catalog.contains (c.opcode k) := by
  cases k <;> rfl

/-- In a legal table a controller command is decoded from its transfer (R121). -/
theorem decodeTransfer_opcode {c : CommandTable} (hc : c.legal = true) {k : Command}
    (hk : c.catalog.contains (c.opcode k) = true) (p : Payload) :
    decodeTransfer c { opcode := c.opcode k, payload := p } = .ok (k.instr p) := by
  simp only [decodeTransfer, inCatalog, hk, if_true, CommandTable.commandOf_opcode hc]

/-- Settles O1, by the port that the encoding is made on. -/
theorem decodeOfEncode : Obligations.DecodeOfEncode := by
  intro c i hc hw
  cases henc : encode c i with
  | request q => exact decodeRequest_of_encode henc hw
  | transfer t =>
    obtain ⟨op, payload⟩ := t
    obtain ⟨k, rfl, rfl⟩ := instr_of_encode henc
    exact decodeTransfer_opcode hc (by rwa [wellFormed_instr] at hw) payload

/-! ### When each part of the request decoder yields an instruction (R103) -/

section
variable {c : CommandTable} {d : Desc} {buf : List Byte} {i : Instr}

@[simp] theorem withoutOperands_eq_ok {k : Except Reject Instr} : withoutOperands d k = .ok i ↔
    (descA d = 0#16 ∧ descB d = 0#16 ∧ descC d = 0#16 ∧ descD d = 0#16) ∧ k = .ok i := by
  unfold withoutOperands
  split <;> simp [*]

@[simp] theorem withByteOperand_eq_ok {k : Byte → Except Reject Instr} : withByteOperand d k = .ok i ↔
    (highByte (descA d) = 0#8 ∧ descB d = 0#16 ∧ descC d = 0#16 ∧ descD d = 0#16) ∧
      k (lowByte (descA d)) = .ok i := by
  unfold withByteOperand
  split <;> simp [*]

@[simp] theorem withoutBuffer_eq_ok {k : Except Reject Instr} :
    withoutBuffer buf k = .ok i ↔ buf = [] ∧ k = .ok i := by
  unfold withoutBuffer
  split <;> simp [*]

@[simp] theorem inCatalog_eq_ok {op : Byte} {k : Except Reject Instr} :
    inCatalog c op k = .ok i ↔ op ∈ c.catalog ∧ k = .ok i := by
  unfold inCatalog
  split <;> simp_all

/-- INIT's buffer is read as INIT of the legal profile whose image it is (R106, R107). -/
theorem decodeInit_eq_ok : decodeInit buf = .ok i ↔
    ∃ p : Profile, decodeProfile buf = .ok p ∧ p.legal = true ∧ .init p = i := by
  unfold decodeInit
  cases decodeProfile buf with
  | error x => simp
  | ok p => cases hp : p.legal <;> simp [hp]

/-- A request is an operation when OP and RSV are legal and the operation of OP is read (R103 items 1 and 2). -/
theorem decodeRequest_eq_ok : decodeRequest c { desc := d, buf := buf } = .ok i ↔
    (descOp d).toNat < 0x0E ∧ descRsv d = 0#8 ∧ decodeOp c d buf = .ok i := by
  have hop : descOp d > 0x0D#8 ↔ ¬(descOp d).toNat < 0x0E := by bv_omega
  unfold decodeRequest
  simp only [hop]
  split
  · simp [*]
  · split <;> simp_all

end

/-- The OP values of R101: operations of neither operand nor buffer, operations of a buffer only, then the others. -/
theorem hostOp_cases {op : Byte} (h : op.toNat < 0x0E) :
    (op = 0x02#8 ∨ op = 0x03#8 ∨ op = 0x05#8 ∨ op = 0x06#8 ∨ op = 0x07#8 ∨ op = 0x08#8) ∨ (op = 0x04#8 ∨ op = 0x09#8) ∨
      op = 0x00#8 ∨ op = 0x01#8 ∨ op = 0x0A#8 ∨ op = 0x0B#8 ∨ op = 0x0C#8 ∨ op = 0x0D#8 := by
  bv_omega

/-! ### What decodes is the encoding of its instruction (R104) -/

/-- What a request decodes to is encoded as that request: no bit of a legal descriptor is ignored (R100, R103). -/
theorem encode_of_decodeRequest {c : CommandTable} {r : Request} {i : Instr} (h : decodeRequest c r = .ok i) :
    encode c i = .request r := by
  obtain ⟨d, buf⟩ := r
  obtain ⟨hop, hrsv, h⟩ := decodeRequest_eq_ok.mp h
  obtain ⟨op, xs, xe, ys, ye, rfl⟩ : ∃ op xs xe ys ye, d = mkDesc op xs xe ys ye :=
    ⟨_, _, _, _, _, mkDesc_of_fields d hrsv⟩
  rw [descOp_mkDesc] at hop
  obtain hbare | himage | rfl | rfl | rfl | rfl | rfl | rfl := hostOp_cases hop
  · obtain rfl | rfl | rfl | rfl | rfl | rfl := hbare <;>
    · simp [decodeOp] at h
      obtain ⟨⟨rfl, rfl, rfl, rfl⟩, rfl, rfl⟩ := h
      rfl
  · obtain rfl | rfl := himage <;>
    · simp [decodeOp] at h
      obtain ⟨⟨rfl, rfl, rfl, rfl⟩, rfl⟩ := h
      rfl
  · simp [decodeOp, decodeInit_eq_ok] at h
    obtain ⟨⟨rfl, rfl, rfl, rfl⟩, p, hp, -, rfl⟩ := h
    rw [encode, (encodeProfile_of_decodeProfile hp).1, bareRequest]
  · simp [decodeOp] at h
    obtain ⟨rfl, rfl⟩ := h
    rfl
  · simp [decodeOp] at h
    obtain rfl := h
    rfl
  · simp [decodeOp] at h
    obtain ⟨⟨hhigh, rfl, rfl, rfl⟩, rfl, -, rfl⟩ := h
    rw [encode, byteOperand_lowByte xs hhigh]
  · simp [decodeOp] at h
    obtain ⟨⟨hhigh, rfl, rfl, rfl⟩, rfl, rfl⟩ := h
    rw [encode, byteOperand_lowByte xs hhigh]
  · simp [decodeOp] at h
    obtain ⟨⟨hhigh, rfl, rfl, rfl⟩, -, rfl⟩ := h
    rw [encode, byteOperand_lowByte xs hhigh]

/-- A transfer that decodes has an opcode in CATALOG (R122). -/
theorem catalog_of_decodeTransfer {c : CommandTable} {t : Transfer} {i : Instr} (h : decodeTransfer c t = .ok i) :
    t.opcode ∈ c.catalog := (inCatalog_eq_ok.mp h).1

/-- Settles O2: a request decodes to what spells it, a transfer to the command of its opcode. -/
theorem encodeOfDecode : Obligations.EncodeOfDecode := by
  intro c e i h
  cases e with
  | request r => exact ⟨(spellsHost_decodeRequest r i h).2, encode_of_decodeRequest h⟩
  | transfer t =>
    have hcat := catalog_of_decodeTransfer h
    obtain ⟨k, rfl, hop⟩ := decodeTransfer_eq_ok h
    rw [wellFormed_instr, encode_instr, hop]
    exact ⟨by simpa using hcat, rfl⟩

/-! ### Which requests decode (R103, R107) -/

theorem lowByte_eq_ofNat (v : Half) : lowByte v = BitVec.ofNat 8 v.toNat := by
  apply BitVec.eq_of_toNat_eq
  simp [lowByte, BitVec.extractLsb'_toNat]

theorem highByte_eq_zero_iff (v : Half) : highByte v = 0#8 ↔ v.toNat < 256 := by
  rw [← BitVec.toNat_inj, highByte, BitVec.extractLsb'_toNat, Nat.shiftRight_eq_div_pow, BitVec.toNat_ofNat]
  have := v.isLt
  omega

theorem halfOfBytes_toNat (lo hi : Byte) : (halfOfBytes lo hi).toNat = lo.toNat + 256 * hi.toNat := by
  rw [halfOfBytes, toNat_append_add]
  omega

theorem Profile.legal_iff (p : Profile) : p.legal = true ↔
    (1 ≤ p.w.toNat ∧ p.w.toNat ≤ 2040 ∧ 1 ≤ p.h.toNat ∧ p.h.toNat ≤ 511 ∧ p.entry.toNat ≤ 3) ∧
      p.lutF.length = Config.lutLen ∧ p.lutP.length = Config.lutLen := by
  simp only [Profile.legal, Bool.and_eq_true, decide_eq_true_eq, and_assoc]
  rfl

/-- A buffer that decodes to a profile has its 71 bytes, with W, H and ENTRY at their offsets (R106). -/
theorem fields_of_decodeProfile {buf : List Byte} {p : Profile} (h : decodeProfile buf = .ok p) : buf.length = 71 ∧
    p.w = halfOfBytes (buf.getD 0 0#8) (buf.getD 1 0#8) ∧ p.h = halfOfBytes (buf.getD 2 0#8) (buf.getD 3 0#8) ∧
    p.entry = buf.getD 10 0#8 := by
  obtain ⟨rfl, hF, hP⟩ := encodeProfile_of_decodeProfile h
  simp [encodeProfile, hF, hP, Config.lutLen]

/-- Every buffer of 71 bytes decodes to a profile (R106). -/
theorem decodeProfile_of_length {buf : List Byte} (h : buf.length = 71) : ∃ p, decodeProfile buf = .ok p := by
  match buf, h with
  | _ :: _ :: _ :: _ :: _ :: _ :: _ :: _ :: _ :: _ :: _ :: tables, h =>
    have htables : tables.length = Config.lutLen + Config.lutLen := by simpa [Config.lutLen] using h
    exact ⟨_, if_pos htables⟩

/-- INIT's buffer decodes exactly when it is 71 bytes long and W, H and ENTRY are in their ranges, at the offsets of
R106 (R103 item 6, R107). -/
theorem decodeInit_isOk_iff (buf : List Byte) : (∃ i, decodeInit buf = .ok i) ↔ buf.length = 71 ∧
    1 ≤ (buf.getD 0 0#8).toNat + 256 * (buf.getD 1 0#8).toNat ∧
    (buf.getD 0 0#8).toNat + 256 * (buf.getD 1 0#8).toNat ≤ 2040 ∧
    1 ≤ (buf.getD 2 0#8).toNat + 256 * (buf.getD 3 0#8).toNat ∧
    (buf.getD 2 0#8).toNat + 256 * (buf.getD 3 0#8).toNat ≤ 511 ∧
    (buf.getD 10 0#8).toNat ≤ 3 := by
  have hdecodes : (∃ i, decodeInit buf = .ok i) ↔ ∃ p, decodeProfile buf = .ok p ∧ p.legal = true := by
    simp [decodeInit_eq_ok]
  rw [hdecodes]
  constructor
  · rintro ⟨p, hp, hlegal⟩
    obtain ⟨hlen, hw, hh, he⟩ := fields_of_decodeProfile hp
    obtain ⟨hranges, -⟩ := p.legal_iff.mp hlegal
    rw [hw, hh, he, halfOfBytes_toNat, halfOfBytes_toNat] at hranges
    exact ⟨hlen, hranges⟩
  · rintro ⟨hlen, hranges⟩
    obtain ⟨p, hp⟩ := decodeProfile_of_length hlen
    obtain ⟨-, hw, hh, he⟩ := fields_of_decodeProfile hp
    rw [← halfOfBytes_toNat, ← halfOfBytes_toNat, ← hw, ← hh, ← he] at hranges
    exact ⟨p, hp, p.legal_iff.mpr ⟨hranges, (encodeProfile_of_decodeProfile hp).2⟩⟩

/-- The items of R103 in the decoder's terms: by the bytes of A, and by what INIT's buffer decodes to. -/
theorem legalRequest_iff {c : CommandTable} {d : Desc} {buf : List Byte} : LegalRequest c d buf ↔
    (descOp d).toNat < 0x0E ∧ descRsv d = 0#8 ∧
    (usesNoOperand (descOp d) = true → descA d = 0#16 ∧ descB d = 0#16 ∧ descC d = 0#16 ∧ descD d = 0#16) ∧
    (usesByteOperand (descOp d) = true →
      highByte (descA d) = 0#8 ∧ descB d = 0#16 ∧ descC d = 0#16 ∧ descD d = 0#16) ∧
    (usesNoBuffer (descOp d) = true → buf = []) ∧
    (descOp d = 0x0B#8 ∨ descOp d = 0x0D#8 → lowByte (descA d) ∈ c.catalog) ∧
    (descOp d = 0x00#8 → ∃ i, decodeInit buf = .ok i) := by
  simp only [highByte_eq_zero_iff, lowByte_eq_ofNat, decodeInit_isOk_iff]
  exact ⟨fun ⟨h1, h2, h3, h3r, h4, h5, h6⟩ => ⟨h1, h2, h3, h3r, h4, h5, h6⟩,
    fun ⟨h1, h2, h3, h3r, h4, h5, h6⟩ => ⟨h1, h2, h3, h3r, h4, h5, h6⟩⟩

/-- Settles O3: for each OP value the decoder asks what the items ask. -/
theorem requestDecodesUnlessIllegal : Obligations.RequestDecodesUnlessIllegal := by
  intro c d buf
  simp only [legalRequest_iff, decodeRequest_eq_ok, exists_and_left]
  refine and_congr_right fun hop => and_congr_right fun _ => ?_
  obtain (h | h | h | h | h | h) | (h | h) | h | h | h | h | h | h := hostOp_cases hop <;>
    simp [decodeOp, usesNoOperand, usesByteOperand, usesNoBuffer, h]

/-! ### Written-out words, opcodes and payloads (R100, R121, R125 to R132) -/

/-- Settles O4: each word is read field by field. -/
theorem writtenWordsDecode : Obligations.WrittenWordsDecode :=
  ⟨rfl, rfl, rfl, rfl, rfl, rfl, rfl, rfl⟩

/-- Settles O5, by the laws of a legal table; the default one is checked. -/
theorem opcodesAreTheSources : Obligations.OpcodesAreTheSources := by
  refine ⟨fun c hc => ?_, by decide⟩
  obtain ⟨hdriver, hmaster, hram, hnop⟩ := CommandTable.source_values hc
  exact ⟨hdriver, hmaster, hram, hnop, fun a _ b _ => (CommandTable.opcode_inj hc a b).mp,
    fun _ => CommandTable.emitted_mem_catalog hc⟩

/-- Settles O8: the packers' defining lists, and a value below 256 is its byte. -/
theorem packersLayOutPayloads : Obligations.PackersLayOutPayloads := by
  have hbyte {n : Nat} (hn : n < 256) : (BitVec.ofNat 8 n).toNat = n := by
    rw [BitVec.toNat_ofNat, Nat.mod_eq_of_lt hn]
  exact ⟨fun _ => rfl, fun _ _ _ => rfl, fun _ => rfl, fun _ => rfl,
    fun xs xe hxs hxe => ⟨_, _, rfl, hbyte hxs, hbyte hxe⟩, fun _ _ => rfl, fun x hx => ⟨_, rfl, hbyte hx⟩,
    fun _ => rfl, fun _ => rfl⟩

/-- Settles O60: the packers keep their bytes, and both gate counts are those of 200 rows. -/
theorem presetsDifferWhereTheSpecSays : Obligations.PresetsDifferWhereTheSpecSays := by
  intro a b h
  simp only [presetsAdmissible, Bool.and_eq_true, decide_eq_true_eq] at h
  obtain ⟨⟨⟨⟨⟨⟨⟨⟨⟨-, ha⟩, hb⟩, hsoft⟩, hvcom⟩, hdummy⟩, hF⟩, hP⟩, hgate⟩, hentry⟩ := h
  have hgateCount : packDriverOutput (200#16).toNat = [0xC7#8, 0x00#8, 0x00#8] := by decide
  rw [ha, hb]
  refine ⟨hgateCount, hgateCount, ?_, ?_, ?_, congrArg packByte hgate, congrArg packEntry hentry, hF, hP⟩
  · simpa [packSoftStart] using hsoft
  · simpa [packByte] using hvcom
  · simpa [packByte] using hdummy

/-! ### The transfers (R110, R270 to R272) -/

theorem exchangeAll_append (bs bs' : List Byte) : exchangeAll (bs ++ bs') = exchangeAll bs ++ exchangeAll bs' :=
  List.flatMap_append

/-- Settles O9: a payload's exchanges follow the opcode, and the last byte's stand before CS high. -/
theorem transferShapes : Obligations.TransferShapes := by
  refine ⟨fun _ => rfl, fun _ => rfl, fun _ => rfl, fun _ => rfl, fun op bytes b => ?_⟩
  rw [cmdString, cmdString, List.dropLast_concat, exchangeAll_append]
  simp [exchangeAll, exchange]

/-! ### The raw request of a transfer (R270, R272) -/

/-- The payload of a transfer's actions is its payload. -/
theorem payloadAhead_exchangeAll (p : List Byte) : payloadAhead (exchangeAll p ++ [.pin .cs true false]) = some p := by
  induction p with
  | nil => rfl
  | cons b p ih => exact congrArg (Option.map (b :: ·)) ih

/-- The transfer at the head of a transfer's actions is that transfer. -/
theorem transferAhead_transferActions (t : Transfer) :
    transferAhead (transferActions t.opcode t.payload) = some t := by
  obtain ⟨op, _ | p⟩ := t
  · rfl
  · have h := congrArg (Option.map fun p => ({ opcode := op, payload := some p } : Transfer))
      (payloadAhead_exchangeAll p)
    simpa [transferActions, cmdString, exchange, transferAhead] using h

/-- The operation whose request makes a transfer by itself: WRITE_CMD or WRITE_CMD_STRING. -/
def rawOperation (t : Transfer) : Instr :=
  match t.payload with
  | none => .writeCmd t.opcode
  | some p => .writeCmdString t.opcode p

theorem encode_rawOperation (c : CommandTable) (t : Transfer) :
    encode c (rawOperation t) = .request (rawRequest t) := by
  obtain ⟨op, _ | p⟩ := t <;> rfl

theorem sequenceOf_rawOperation (t : Transfer) (s : State) :
    sequenceOf (rawOperation t) s = transferActions t.opcode t.payload := by
  obtain ⟨op, _ | p⟩ := t <;> rfl

/-- The raw request of an opcode in CATALOG decodes to its raw operation (R103 item 5). -/
theorem decodeRequest_rawRequest {c : CommandTable} {t : Transfer} (h : t.opcode ∈ c.catalog) :
    decodeRequest c (rawRequest t) = .ok (rawOperation t) := by
  refine decodeRequest_of_encode (encode_rawOperation c t) ?_
  obtain ⟨op, _ | p⟩ := t <;> simpa [rawOperation, Instr.wellFormed] using h

/-- Settles O14: the raw request spells its raw operation, whose sequence is the transfer. -/
theorem rawRequestStandsBeforeItsCommand : Obligations.RawRequestStandsBeforeItsCommand := by
  intro s t c h
  have hop := decodeRequest_rawRequest (catalog_of_decodeTransfer h)
  simp only [nextCommand, Running.operation, hop, remaining, sequenceOf_rawOperation, List.drop_zero,
    transferAhead_transferActions, h]

end Sys2Proof
end
section
/-! PROOFS. The update-sequence operations to their end (spec/45_refresh_sequence.md R230 to R244): what each of their
transfers leaves behind, then the operations as these one after the other. -/

namespace Sys2Proof.Machine

/-! ### What the transfer of a named command leaves of the ghost state (R46, R47, R238, R352, R355) -/

section
variable {c : CommandTable} {k : Context} (hc : c.legal = true) (hk : k.commands = c) (g : Ghost)
include hc hk

/-- Every command but MasterActivation leaves PHASE, UPD_WINDOW and LUT_MISMATCH. -/
theorem ghost_afterTransfer_command {name : Command} (hn : name ≠ .masterActivation) (payload : List Byte) :
    g.afterTransfer k (c.opcode name) payload =
      { g with
        interval := none
        shadow := { g.shadow with ramOpen := some (decide (name = Command.writeRam)) }.program c (c.opcode name) payload
        hazSrc := g.hazSrc || (g.updWindow && decide (name = .writeRam ∨ name = .displayUpdateControl2))
        hazStrict := g.hazStrict || (g.updWindow && !(k.ownNop && decide (name = .nop))) } := by
  subst hk
  simp [Ghost.afterTransfer, Ghost.commandByte, Phase.afterOpcode, isHazardousCommand, CommandTable.opcode_inj hc, hn]

/-- MasterActivation programs no SHADOW field but closes the RAM write; what it starts goes by the context and the
mask. -/
theorem ghost_afterTransfer_activation : g.afterTransfer k (c.opcode .masterActivation) [] =
    { g with
      interval := none
      phase := k.refresh.elim g.phase Phase.activated
      updWindow := g.updWindow || hasPatternStage g.shadow.updMask
      shadow := { g.shadow with ramOpen := some false }
      hazSrc := g.hazSrc || g.updWindow
      hazStrict := g.hazStrict || g.updWindow
      lutMismatch := g.lutMismatch || lutMismatches k g.shadow.lutLoaded } := by
  subst hk
  simp [Ghost.afterTransfer, Ghost.commandByte, afterOpcode_masterActivation, isHazardousCommand,
    CommandTable.opcode_inj hc, Shadow.program]

end

/-! ### What the parts of a sequence leave behind, but for the trace -/

/-- The state after a stage mask has been programmed (R133). -/
def State.afterMask (s : State) (mask : Byte) : State :=
  { s with
    csL := .high, dcL := .high
    ghost := { s.ghost with
      interval := none
      shadow := { s.ghost.shadow with updMask := some mask, ramOpen := some false }
      hazSrc := s.ghost.hazSrc || s.ghost.updWindow
      hazStrict := s.ghost.hazStrict || s.ghost.updWindow } }

/-- The state after a stage mask and the activation of refresh operation `r` (R230 to R233). -/
def State.afterActivation (s : State) (r : Refresh) (mask : Byte) : State :=
  { s with
    csL := .high, dcL := .low
    ghost := { s.ghost with
      interval := none
      phase := Phase.activated r
      updWindow := s.ghost.updWindow || mask.getLsbD Config.patternBit
      shadow := { s.ghost.shadow with updMask := some mask, ramOpen := some false }
      hazSrc := s.ghost.hazSrc || s.ghost.updWindow
      hazStrict := s.ghost.hazStrict || s.ghost.updWindow
      lutMismatch := s.ghost.lutMismatch ||
        lutMismatches { s.context with refresh := some r } s.ghost.shadow.lutLoaded } }

/-- The state after an update's own Nop, which counts for neither hazard predicate (R235, R352). -/
def State.afterOwnNop (s : State) : State :=
  { s with
    csL := .high, dcL := .low
    ghost := { s.ghost with interval := none, shadow := { s.ghost.shadow with ramOpen := some false } } }

/-- The state after a window has been programmed, the counters at its start corner (R172, R178). -/
def State.afterArea (s : State) (xs xe ys ye : Nat) : State :=
  { s with
    csL := .high, dcL := .high
    ghost := { s.ghost with
      interval := none
      shadow := { s.ghost.shadow with
        winX := some (BitVec.ofNat 8 xs, BitVec.ofNat 8 xe), winY := some (BitVec.ofNat 9 ys, BitVec.ofNat 9 ye)
        cntX := some (BitVec.ofNat 8 xs), cntY := some (BitVec.ofNat 9 ys), ramOpen := some false }
      hazStrict := s.ghost.hazStrict || s.ghost.updWindow } }

/-- The state after a whole table has been loaded (R46, R190). -/
def State.afterLutLoad (s : State) (table : List Byte) : State :=
  { s with
    csL := .high, dcL := .high
    ghost := { s.ghost with
      interval := none
      shadow := { s.ghost.shadow with lutLoaded := some table, ramOpen := some false }
      hazStrict := s.ghost.hazStrict || s.ghost.updWindow } }

/-- The state after a busy-wait and the image sent after it (R200, R203): the POLL has closed UPD_WINDOW. -/
def State.afterImage (s : State) : State :=
  { s with
    csL := .high, dcL := .high
    ghost := { s.ghost with
      interval := none
      phase := s.ghost.phase.polledLow s.context.powerOnWait
      updWindow := false
      shadow := { s.ghost.shadow with ramOpen := some true } } }

/-- A mask just programmed is the one that a refresh operation of the request goes by. -/
theorem context_afterMask {s : State} {q : Running} {r : Refresh} {mask : Byte} (hq : s.seq = .exec q)
    (hr : refreshOf (descOp q.req.desc) (some mask) = some r) :
    (s.afterMask mask).context = { s.context with refresh := some r } := by
  simp [State.context, State.afterMask, hq, hr]

@[simp] theorem context_lutF (s : State) : s.context.lutF = s.lutF := by
  unfold State.context
  cases s.seq <;> rfl

@[simp] theorem context_lutP (s : State) : s.context.lutP = s.lutP := by
  unfold State.context
  cases s.seq <;> rfl

section
variable {s : State} (hc : s.params.commands.legal = true)
include hc

theorem afterTransfer_mask (mask : Byte) :
    s.afterTransfer (s.opc .displayUpdateControl2) (some [mask]) = s.afterMask mask := by
  rw [State.afterTransfer, ghost_afterTransfer_command hc (context_commands s) _ (by decide)]
  simp [State.afterMask, Shadow.program, CommandTable.opcode_inj hc]

theorem afterTransfer_ownNop (hnop : s.context.ownNop = true) :
    s.afterTransfer (s.opc .nop) none = s.afterOwnNop := by
  rw [State.afterTransfer, ghost_afterTransfer_command hc (context_commands s) _ (by decide)]
  simp [State.afterOwnNop, Shadow.program, CommandTable.opcode_inj hc, hnop]

theorem afterTransfer_lutLoad {table : List Byte} (ht : table.length = 30) :
    s.afterTransfer (s.opc .writeLutRegister) (some table) = s.afterLutLoad table := by
  rw [State.afterTransfer, ghost_afterTransfer_command hc (context_commands s) _ (by decide)]
  simp [State.afterLutLoad, Shadow.program, CommandTable.opcode_inj hc, ht, Config.lutLen]

theorem afterTransfer_image (image : List Byte) :
    s.afterBusyWait.afterTransfer (s.opc .writeRam) (some image) = s.afterImage := by
  rw [State.afterTransfer, ghost_afterTransfer_command (c := s.params.commands) hc (context_commands s.afterBusyWait) _
    (by decide)]
  simp [State.afterBusyWait, State.afterImage, Ghost.observePoll, Shadow.program, CommandTable.opcode_inj hc]

theorem afterTransfer_activation {q : Running} {r : Refresh} {mask : Byte} (hq : s.seq = .exec q)
    (hr : refreshOf (descOp q.req.desc) (some mask) = some r) :
    (s.afterMask mask).afterTransfer (s.opc .masterActivation) none = s.afterActivation r mask := by
  rw [State.afterTransfer, context_afterMask hq hr, Option.getD_none,
    ghost_afterTransfer_activation hc (k := { s.context with refresh := some r }) (context_commands s)]
  simp [State.afterMask, State.afterActivation, hasPatternStage]

/-- The four transfers of a window, the 9-bit values read back whole (R16, R172). -/
theorem afterTransfers_area {xs xe ys ye : Nat} (hys : ys < 512) (hye : ye < 512) :
    (((s.afterTransfer (s.opc .setRamXAddressStartEndPosition) (some (packXWindow xs xe))).afterTransfer
      (s.opc .setRamYAddressStartEndPosition) (some (packYWindow ys ye))).afterTransfer
      (s.opc .setRamXAddressCounter) (some (packXCounter xs))).afterTransfer
      (s.opc .setRamYAddressCounter) (some (packYCounter ys)) = s.afterArea xs xe ys ye := by
  obtain ⟨a, b, hstart, hys⟩ := join9_of_split9 hys
  obtain ⟨a', b', hend, hye⟩ := join9_of_split9 hye
  simp [State.afterTransfer, State.afterArea, ghost_afterTransfer_command hc, Shadow.program,
    CommandTable.opcode_inj hc, packXWindow, packYWindow, packXCounter, packYCounter, hstart, hend, hys, hye]

/-- A mask and the activation after it, for the refresh operation that the request and the mask tell (R238). -/
theorem ideal_activation {q : Running} {r : Refresh} {mask : Byte} (hq : s.seq = .exec q)
    (hr : refreshOf (descOp q.req.desc) (some mask) = some r) :
    (s.recordAll ((activateActions s.params.commands mask).map Action.ideal)).sansTrace =
      (s.afterActivation r mask).sansTrace := by
  rw [← afterTransfer_activation hc hq hr, ← afterTransfer_mask hc]
  exact sansTrace_append (ideal_cmdString s _ _) (ideal_cmd _ _)

theorem ideal_lutLoad {table : List Byte} (ht : table.length = 30) :
    (s.recordAll ((cmdString (s.opc .writeLutRegister) table).map Action.ideal)).sansTrace =
      (s.afterLutLoad table).sansTrace := by
  rw [← afterTransfer_lutLoad hc ht]
  exact ideal_cmdString s _ _

theorem ideal_image (image : List Byte) :
    (s.recordAll ((loadImageActions s.params.commands image).map Action.ideal)).sansTrace = s.afterImage.sansTrace := by
  rw [← afterTransfer_image hc image]
  exact sansTrace_append (ideal_busyWait s) (ideal_cmdString _ _ _)

theorem ideal_area {xs xe ys ye : Nat} (hys : ys < 512) (hye : ye < 512) :
    (s.recordAll ((areaActions s.params.commands xs xe ys ye).map Action.ideal)).sansTrace =
      (s.afterArea xs xe ys ye).sansTrace := by
  rw [← afterTransfers_area hc hys hye]
  exact sansTrace_append (sansTrace_append (sansTrace_append (ideal_cmdString s _ _) (ideal_cmdString _ _ _))
    (ideal_cmdString _ _ _)) (ideal_cmdString _ _ _)

/-- An update is its activation and its own Nop (R231, R232). -/
theorem ideal_update {q : Running} {r : Refresh} {mask : Byte} (hq : s.seq = .exec q)
    (hr : refreshOf (descOp q.req.desc) (some mask) = some r)
    (hnop : (s.afterActivation r mask).context.ownNop = true) :
    (s.recordAll ((activateActions s.params.commands mask ++ cmd (s.opc .nop)).map Action.ideal)).sansTrace =
      (s.afterActivation r mask).afterOwnNop.sansTrace := by
  rw [← afterTransfer_ownNop (s := s.afterActivation r mask) hc hnop]
  exact sansTrace_append (ideal_activation hc hq hr) (ideal_cmd _ _)

end

/-! ### The operations to their end -/

/-- A host operation but INIT whose sequence the environment answers to its end, from the state `u` that the shortest
trace leaves. -/
theorem exec_of_carries {i : Instr} {q : Request} {s u : State} {ev : List Event} {rest : Env}
    (henc : encode s.params.commands i = .request q) (hi : ∀ p, i ≠ .init p)
    (hw : i.wellFormed s.params.commands = true) (hs : s.accepting) (hcheck : checkOf i s = none)
    (ha : s.answers (sequenceOf i s) ev rest)
    (hu : ((start i s).recordAll ((sequenceOf i s).map Action.ideal)).sansTrace = u.sansTrace) :
    exec i s = .next { u with seq := .idle, status := .ok, trace := s.trace ++ ev, env := rest } := by
  rw [exec_eq_hostOperation henc hi]
  exact hostOperation_of_carries hw hs hcheck ha hu

/-- Settles O26: the activation of POWER_ON, and its busy-wait. -/
theorem powerOnCompletes : Obligations.PowerOnCompletes := by
  intro s ev rest hs hc ha
  have hactivate := ideal_activation (s := start .powerOn s) (r := .powerOn) (mask := Config.maskPowerOn) hc rfl rfl
  have hideal := sansTrace_append hactivate (ideal_busyWait _)
  rw [exec_of_carries (i := .powerOn) rfl nofun rfl hs rfl ha hideal]
  have hwait : ((start .powerOn s).afterActivation .powerOn Config.maskPowerOn).context.powerOnWait = true := rfl
  simp only [State.afterBusyWait, Ghost.observePoll, hwait]
  simp [State.afterActivation, Phase.activated, Phase.polledLow, lutMismatches, Config.maskPowerOn, hs.2]

/-- Settles O27: the activation of UPDATE_FULL, and its Nop. -/
theorem updateFullCompletes : Obligations.UpdateFullCompletes := by
  intro s ev rest hs hc ha
  have hideal :=
    ideal_update (s := start .updateFull s) (r := .updateFull) (mask := Config.maskUpdateFull) hc rfl rfl rfl
  rw [exec_of_carries (i := .updateFull) rfl nofun rfl hs rfl ha hideal]
  simp [State.afterOwnNop, State.afterActivation, Phase.activated, lutMismatches, Config.maskUpdateFull,
    Config.patternBit, hs.2]

/-- Settles O28: the activation of UPDATE_PARTIAL, and its Nop. -/
theorem updatePartialCompletes : Obligations.UpdatePartialCompletes := by
  intro s ev rest hs hc ha
  have hideal :=
    ideal_update (s := start .updatePartial s) (r := .updatePartial) (mask := Config.maskUpdatePartial) hc rfl rfl rfl
  rw [exec_of_carries (i := .updatePartial) rfl nofun rfl hs rfl ha hideal]
  simp [State.afterOwnNop, State.afterActivation, Phase.activated, lutMismatches, Config.maskUpdatePartial,
    Config.patternBit, hs.2]

/-- Settles O29: the activation of POWER_OFF. -/
theorem powerOffCompletes : Obligations.PowerOffCompletes := by
  intro s ev rest hs hc ha
  have hideal := ideal_activation (s := start .powerOff s) (r := .powerOff) (mask := Config.maskPowerOff) hc rfl rfl
  rw [exec_of_carries (i := .powerOff) rfl nofun rfl hs rfl ha hideal]
  simp [State.afterActivation, Phase.activated, lutMismatches, Config.maskPowerOff, Config.patternBit, hs.2]

/-! ### The canonical recipe (R240) -/

/-- The state after the recipe's first two parts: the table loaded, the panel powered on. -/
def State.afterPowerUp (s : State) (table : List Byte) : State :=
  ((s.afterLutLoad table).afterActivation .powerOn Config.maskPowerOn).afterBusyWait

/-- The state after its next two: the window of a whole panel of `bw` by `h`, and the image. -/
def State.afterDrawing (s : State) (bw h : Nat) : State := (s.afterArea 0 (bw - 1) (h - 1) 0).afterImage

/-- The state after its last two: the full update with its Nop, and the power-off. -/
def State.afterShowing (s : State) : State :=
  (s.afterActivation .updateFull Config.maskUpdateFull).afterOwnNop.afterActivation .powerOff Config.maskPowerOff

theorem ideal_drawing {s : State} (hc : s.params.commands.legal = true) {bw h : Nat} (hh : h - 1 < 512)
    (image : List Byte) : (s.recordAll ((areaActions s.params.commands 0 (bw - 1) (h - 1) 0 ++
      loadImageActions s.params.commands image).map Action.ideal)).sansTrace = (s.afterDrawing bw h).sansTrace :=
  sansTrace_append (ideal_area hc hh (by decide)) (ideal_image (s := s.afterArea 0 (bw - 1) (h - 1) 0) hc image)

section
variable {s : State} {q : Running} (hc : s.params.commands.legal = true) (hq : s.seq = .exec q)
  (hop : descOp q.req.desc = 0x09#8)
include hc hq hop

theorem ideal_powerUp {table : List Byte} (ht : table.length = 30) :
    (s.recordAll ((cmdString (s.opc .writeLutRegister) table ++ powerOnActions s.params.commands).map
      Action.ideal)).sansTrace = (s.afterPowerUp table).sansTrace := by
  have hon : refreshOf (descOp q.req.desc) (some Config.maskPowerOn) = some .powerOn := by
    rw [hop]
    rfl
  exact sansTrace_append (ideal_lutLoad hc ht)
    (sansTrace_append (ideal_activation (s := s.afterLutLoad table) hc hq hon) (ideal_busyWait _))

theorem ideal_showing :
    (s.recordAll ((updateFullActions s.params.commands ++ powerOffActions s.params.commands).map
      Action.ideal)).sansTrace = s.afterShowing.sansTrace := by
  have hupdate : refreshOf (descOp q.req.desc) (some Config.maskUpdateFull) = some .updateFull := by
    rw [hop]
    rfl
  have hoff : refreshOf (descOp q.req.desc) (some Config.maskPowerOff) = some .powerOff := by
    rw [hop]
    rfl
  have hnop : (s.afterActivation .updateFull Config.maskUpdateFull).context.ownNop = true := by
    simp [State.context, State.afterActivation, hq, hop]
  exact sansTrace_append (ideal_update hc hq hupdate hnop)
    (ideal_activation (s := (s.afterActivation .updateFull Config.maskUpdateFull).afterOwnNop) hc hq hoff)

/-- The recipe leaves behind what its parts leave one after the other; its request is the context of each. -/
theorem ideal_recipe (hlut : s.lutF.length = 30) (hh : s.h.toNat - 1 < 512) (image : List Byte) :
    (s.recordAll ((showFullScreenActions image s).map Action.ideal)).sansTrace =
      ((s.afterPowerUp s.lutF).afterDrawing s.bw s.h.toNat).afterShowing.sansTrace := by
  have hdraw := ideal_drawing (s := s.afterPowerUp s.lutF) (bw := s.bw) hc hh image
  have hshow := ideal_showing (s := (s.afterPowerUp s.lutF).afterDrawing s.bw s.h.toNat) hc hq hop
  have hall := sansTrace_append (sansTrace_append (ideal_powerUp hc hq hop hlut) hdraw) hshow
  have hacts : showFullScreenActions image s = (cmdString (s.opc .writeLutRegister) s.lutF ++
      powerOnActions s.params.commands) ++ (areaActions s.params.commands 0 (s.bw - 1) (s.h.toNat - 1) 0 ++
      loadImageActions s.params.commands image) ++ (updateFullActions s.params.commands ++
      powerOffActions s.params.commands) := by
    simp [showFullScreenActions, loadFullLutActions, packLut]
  rw [hacts]
  exact hall

end

/-- Settles O30: the parts of the recipe one after the other, its request the context of each. -/
theorem showFullScreenImageCompletes : Obligations.ShowFullScreenImageCompletes := by
  intro img s ev rest hs hc hsize hlut hlen ha
  obtain ⟨-, -, -, hmax⟩ := hsize
  have hh : s.h.toNat - 1 < 512 := Nat.lt_succ_of_le ((Nat.sub_le _ _).trans hmax)
  have hcheck : checkOf (.showFullScreenImage img) s = none := if_neg (not_not.mpr hlen)
  have hacts : s.answers (sequenceOf (.showFullScreenImage img) s) ev rest := by
    simp only [sequenceOf, showFullScreenActions, powerOnActions, activateActions, areaActions, loadImageActions,
      updateFullActions, powerOffActions, List.append_assoc] at ha ⊢
    exact ha
  let t := start (.showFullScreenImage img) s
  have hop : descOp (requestOf s.params.commands (.showFullScreenImage img)).desc = 0x09#8 := descOp_mkDesc _ _ _ _ _
  have hideal := ideal_recipe (s := t) hc rfl hop hlut hh img
  rw [exec_of_carries (i := .showFullScreenImage img) rfl nofun rfl hs hcheck hacts hideal]
  simp [State.afterPowerUp, State.afterDrawing, State.afterShowing, State.afterLutLoad, State.afterActivation,
    State.afterBusyWait, State.afterArea, State.afterImage, State.afterOwnNop, Ghost.observePoll, Phase.activated,
    lutMismatches, Config.maskUpdateFull, Config.maskPowerOff, Config.patternBit, State.bw, t, hs.2]

end Sys2Proof.Machine
end

section
/-! PROOFS. INIT (spec/41_construction.md R150 to R158): what its reset pulse and its configuration leave behind, then
INIT to its end and to its first failure. -/

namespace Sys2Proof.Machine

/-! ### What a completed INIT keeps of the ghost state (R341, R352) -/

/-- The end of a CS-low interval changes at most the interval and SHADOW (R46). -/
theorem intervalEnded_eq (g : Ghost) (c : CommandTable) :
    ∃ sh, g.intervalEnded c = { g with interval := none, shadow := sh } := by
  unfold Ghost.intervalEnded
  split
  · next hi => exact ⟨g.shadow, by rw [← hi]⟩
  · split <;> exact ⟨_, rfl⟩

@[simp] theorem updWindow_intervalEnded (g : Ghost) (c : CommandTable) :
    (g.intervalEnded c).updWindow = g.updWindow := by
  obtain ⟨sh, h⟩ := intervalEnded_eq g c
  rw [h]

@[simp] theorem afterInit_intervalEnded (g : Ghost) (c : CommandTable) :
    (g.intervalEnded c).afterInit = g.afterInit := by
  obtain ⟨sh, h⟩ := intervalEnded_eq g c
  rw [h]
  rfl

/-- RST driven low inside UPD_WINDOW is a hazard, which the predicates of the trace keep through INIT (R352). -/
theorem afterInit_resetPulse (g : Ghost) : (g.resetPulse .ok).afterInit =
    { phase := .idle, updWindow := false, interval := none
      shadow := { winX := none, winY := none, cntX := none, cntY := none, lutLoaded := none, updMask := none,
                  ramOpen := some false }
      hazSrc := g.hazSrc || g.updWindow
      hazStrict := g.hazStrict || g.updWindow
      lutMismatch := g.lutMismatch } := rfl

section
variable {c : CommandTable} {k : Context} (hc : c.legal = true) (hk : k.commands = c) (g : Ghost)
  {name : Command} (hn : name ≠ .masterActivation) (payload : List Byte)
include hc hk hn

theorem updWindow_afterTransfer : (g.afterTransfer k (c.opcode name) payload).updWindow = g.updWindow := by
  rw [ghost_afterTransfer_command hc hk g hn]

/-- Outside UPD_WINDOW a command but MasterActivation is no hazard (R352), and a completed INIT forgets the rest. -/
theorem afterInit_afterTransfer (hw : g.updWindow = false) :
    (g.afterTransfer k (c.opcode name) payload).afterInit = g.afterInit := by
  rw [ghost_afterTransfer_command hc hk g hn]
  simp [Ghost.afterInit, hw]

end

/-! ### What the parts of INIT leave behind, but for the trace -/

/-- The state after the idle levels and the reset pulse (R152, R153): RST low has closed UPD_WINDOW, CS high has ended
an interval still open. -/
def State.afterResetPulse (s : State) : State :=
  { s with
    csL := .high, dcL := .high, rstL := .high
    ghost := (s.ghost.resetPulse .ok).intervalEnded s.params.commands }

/-- The state after the six command transfers of the configuration (R154). -/
def State.afterConfiguration (s : State) (p : Profile) (h : Nat) : State :=
  (((((s.afterTransfer (s.opc .driverOutputControl) (some (packDriverOutput h))).afterTransfer
    (s.opc .boosterSoftStartControl) (some (packSoftStart p.ss0 p.ss1 p.ss2))).afterTransfer
    (s.opc .writeVcomRegister) (some (packByte p.vcom))).afterTransfer
    (s.opc .setDummyLinePeriod) (some (packByte p.dummy))).afterTransfer
    (s.opc .setGateLineWidth) (some (packByte p.gate))).afterTransfer
    (s.opc .dataEntryModeSetting) (some (packEntry p.entry))

theorem ideal_resetPulse (s : State) (low high : Half) :
    (s.recordAll ((initIdleLevels ++ initResetPulse low high).map Action.ideal)).sansTrace =
      s.afterResetPulse.sansTrace := by
  simp [initIdleLevels, initResetPulse, Action.ideal, State.record, Ghost.observe, Ghost.observePin,
    State.sansTrace, State.afterResetPulse]

theorem ideal_configuration (s : State) (p : Profile) (h : Nat) :
    (s.recordAll ((initConfiguration s.params.commands p h).map Action.ideal)).sansTrace =
      (s.afterConfiguration p h).sansTrace :=
  sansTrace_append (sansTrace_append (sansTrace_append (sansTrace_append (sansTrace_append
    (ideal_cmdString s _ _) (ideal_cmdString _ _ _)) (ideal_cmdString _ _ _)) (ideal_cmdString _ _ _))
    (ideal_cmdString _ _ _)) (ideal_cmdString _ _ _)

theorem ideal_initActions (p : Profile) (s : State) :
    (s.recordAll ((initActions p s).map Action.ideal)).sansTrace =
      (s.afterResetPulse.afterConfiguration p s.h.toNat).sansTrace :=
  sansTrace_append (ideal_resetPulse s _ _) (ideal_configuration s.afterResetPulse p s.h.toNat)

/-- The configuration is made outside UPD_WINDOW, so a completed INIT keeps nothing of it but the latches. -/
theorem completeInit_afterConfiguration {s : State} (hc : s.params.commands.legal = true)
    (hw : s.ghost.updWindow = false) (p : Profile) (h : Nat) :
    completeInit (s.afterConfiguration p h) = completeInit { s with csL := .high, dcL := .high } := by
  simp [completeInit, State.afterConfiguration, State.afterTransfer, updWindow_afterTransfer hc,
    afterInit_afterTransfer hc, hw]

/-! ### INIT to its end (R150, R158) -/

/-- INIT of a legal profile is its sequence, from the owned registers written at acceptance (R151, R156). -/
theorem exec_init_of_legal {p : Profile} {s : State} (hp : p.legal = true) (hq : s.seq = .idle) :
    exec (.init p) s = .next (settle completeInit
      (runActions (initActions p (acceptProfile p s)) (start (.init p) (acceptProfile p s)))) := by
  simp only [exec, execInit, hq, hp, if_true]

/-- An INIT whose sequence the environment answers to its end, from the state `u` that the shortest trace leaves. -/
theorem exec_init_of_carries {p : Profile} {s u : State} {ev : List Event} {rest : Env} (hp : p.legal = true)
    (hq : s.seq = .idle) (ha : s.answers (initActions p (acceptProfile p s)) ev rest)
    (hu : ((start (.init p) (acceptProfile p s)).recordAll ((initActions p (acceptProfile p s)).map
      Action.ideal)).sansTrace = u.sansTrace) :
    exec (.init p) s = .next { completeInit u with trace := s.trace ++ ev, env := rest } := by
  obtain ⟨henv, hcarries⟩ := ha
  have hrun := runActions_of_carries hcarries (s := start (.init p) (acceptProfile p s)) henv
  rw [exec_init_of_legal hp hq, hrun, settle, after_of_ideal _ hcarries hu]
  rfl

/-- Settles O18: the reset pulse closes UPD_WINDOW, so the configuration after it counts for no hazard. -/
theorem initCompletes : Obligations.InitCompletes := by
  intro p s ev rest hp hc hq ha
  let t := start (.init p) (acceptProfile p s)
  have hacts : s.answers (initActions p (acceptProfile p s)) ev rest := by
    simpa [initActions, initIdleLevels, initResetPulse, initConfiguration, packDriverOutput, packSoftStart, packByte,
      packEntry, Config.gateModeByte] using ha
  have hwindow : t.afterResetPulse.ghost.updWindow = false := updWindow_intervalEnded _ _
  rw [exec_init_of_carries hp hq hacts (ideal_initActions p t),
    completeInit_afterConfiguration (s := t.afterResetPulse) hc hwindow]
  simp [completeInit, State.afterResetPulse, afterInit_resetPulse, t]

/-- Settles O42: the events up to the failure leave the registers as written at acceptance, and LIFE UNINIT. -/
theorem failedInitLeavesUninit : Obligations.FailedInitLeavesUninit := by
  intro p s x ev rest hp hq henv hbreaks
  let u := start (.init p) (acceptProfile p s)
  obtain ⟨n, hrun⟩ : ∃ n, runActions (initActions p (acceptProfile p s)) u = .failed x (u.after ev rest n) :=
    runActions_of_breaks hbreaks henv
  have hexec : exec (.init p) s = .next (abort (.transportError x) (u.after ev rest n)) := by
    rw [exec_init_of_legal hp hq, hrun, settle]
  obtain ⟨hl, hw, hh, hF, hP, href, hpar, hhost⟩ : OwnedUnchanged u (u.after ev rest n) :=
    StandsAfter.owned ⟨ev, rest, _, rfl⟩
  exact ⟨_, hexec, rfl, hl, rfl, after_trace u ev rest n, after_env u ev rest n, href, hpar, hhost, hw, hh, hF, hP⟩

end Sys2Proof.Machine
end

section
/-! PROOFS. The addressing windows (spec/42_addressing.md R170 to R178; spec/44_pixel_transfer.md R210 to R216): the
bounds and length checks as conditions on the operands, the STATUS an unchecked request can leave, then
SET_DISPLAY_AREA and LOAD_PARTIAL_IMAGE to their end. -/

namespace Sys2Proof.Machine

/-! ### The checks, as conditions on the operands (R171, R210 to R214) -/

theorem inBounds_iff (bw h xs xe ys ye : Nat) :
    inBounds bw h xs xe ys ye = true ↔ xs ≤ bw ∧ xe ≤ bw ∧ ys ≤ h ∧ ye ≤ h := by
  simp [inBounds, and_assoc]

section
variable {s : State} {xs xe ys ye : Nat}

theorem checkArea_of_within (h : xs ≤ s.bw ∧ xe ≤ s.bw ∧ ys ≤ s.h.toNat ∧ ye ≤ s.h.toNat) :
    checkArea xs xe ys ye s = none :=
  if_pos ((inBounds_iff ..).mpr h)

theorem checkArea_of_not_within (h : ¬(xs ≤ s.bw ∧ xe ≤ s.bw ∧ ys ≤ s.h.toNat ∧ ye ≤ s.h.toNat)) :
    checkArea xs xe ys ye s = some .boundsError :=
  if_neg (mt (inBounds_iff ..).mp h)

end

/-- A row count of at most `ys + 1` ends at a row number, so the unbounded difference of R212 is a natural one. -/
theorem windowYEnd_eq {ys yh : Nat} (h1 : 1 ≤ yh) (hfit : yh ≤ ys + 1) :
    windowYEnd ys yh = ((ys - (yh - 1) : Nat) : Int) := by
  unfold windowYEnd
  omega

/-- A region that fits passes every check: its derived window is within bounds, Y descending from the start row. -/
theorem checkPartial_of_fits {s : State} {xs xw ys yh len : Nat} (hlen : len = xw * yh) (hxw : 1 ≤ xw) (hyh : 1 ≤ yh)
    (hfit : yh ≤ ys + 1) (hx : xs + (xw - 1) ≤ s.bw) (hy : ys ≤ s.h.toNat) :
    checkPartial xs xw ys yh len s = none := by
  have hsize : ¬(xw = 0 ∨ yh = 0) := by omega
  have hrow : ¬(((ys - (yh - 1) : Nat) : Int) < 0) := by omega
  rw [checkPartial, if_neg (not_not.mpr hlen), if_neg hsize, windowYEnd_eq hyh hfit, if_neg hrow, Int.toNat_natCast]
  exact checkArea_of_within ⟨(Nat.le_add_right _ _).trans hx, hx, hy, (Nat.sub_le _ _).trans hy⟩

/-! ### The STATUS of a request that its check lets through (R43, R303) -/

/-- A request with its sequence settled has STATUS OK or TransportError, or as before while it still executes. -/
theorem settle_complete_status (p : Progress) : (settle complete p).status = .ok ∨
    (settle complete p).status = p.state.status ∨ ∃ x, (settle complete p).status = .transportError x := by
  cases p with
  | done u => exact .inl rfl
  | waiting u => exact .inr (.inl rfl)
  | failed x u => exact .inr (.inr ⟨x, rfl⟩)

theorem hostOperation_status_of_unchecked {i : Instr} {check : State → Option Status} {acts : State → List Action}
    {s : State} (hw : i.wellFormed s.params.commands = true) (hs : s.accepting) (hc : check s = none) :
    ∃ t, hostOperation i check acts s = .next t ∧
      (t.status = .ok ∨ t.status = s.status ∨ ∃ x, t.status = .transportError x) := by
  refine ⟨settle complete (runActions (acts s) (start i s)), ?_, ?_⟩
  · simp only [hostOperation, hs.2, hw, if_true, hs.1, execute, hc]
  · have hstatus := (runActions_standsAfter (acts s) (start i s)).status_eq
    rw [start_status] at hstatus
    rw [← hstatus]
    exact settle_complete_status _

/-! ### SET_DISPLAY_AREA (R170 to R178) -/

/-- Settles O20: the check decides; past it STATUS is OK, as before or a TransportError. -/
theorem setDisplayAreaBounds : Obligations.SetDisplayAreaBounds := by
  intro xs xe ys ye s hs
  refine ⟨fun hout => hostOperation_of_check rfl hs (checkArea_of_not_within hout), fun hin hne => ?_⟩
  obtain ⟨t, hexec, hstatus⟩ :=
    hostOperation_status_of_unchecked (i := .setDisplayArea xs xe ys ye)
      (acts := sequenceOf (.setDisplayArea xs xe ys ye)) rfl hs (checkArea_of_within hin)
  refine ⟨t, hexec, ?_⟩
  obtain h | h | ⟨x, h⟩ := hstatus <;> rw [h]
  · exact nofun
  · exact hne
  · exact nofun

/-- Settles O19: the low bytes of the operands are their packed X bytes, and on a legal panel the Y operands have nine
bits, so the four transfers program the window asked for. -/
theorem setDisplayAreaCompletes : Obligations.SetDisplayAreaCompletes := by
  intro xs xe ys ye s ev rest hs hc hsize hxs hxe hys hye ha
  obtain ⟨-, -, -, hmax⟩ := hsize
  have hcheck : checkOf (.setDisplayArea xs xe ys ye) s = none := checkArea_of_within ⟨hxs, hxe, hys, hye⟩
  simp only [lowByte_eq_ofNat] at ha ⊢
  have hideal := ideal_area (s := start (.setDisplayArea xs xe ys ye) s) (xs := xs.toNat) (xe := xe.toNat) hc
    (Nat.lt_succ_of_le (hys.trans hmax)) (Nat.lt_succ_of_le (hye.trans hmax))
  rw [exec_of_carries (i := .setDisplayArea xs xe ys ye) rfl nofun rfl hs hcheck ha hideal]
  simp [State.afterArea, hs.2]

/-! ### LOAD_PARTIAL_IMAGE (R210 to R216) -/

/-- The port actions for a region whose rows fit: its window by the natural end row, then the image (R212, R216). -/
theorem loadPartialImageActions_of_fits (c : CommandTable) (xs xw : Nat) {ys yh : Nat} (h1 : 1 ≤ yh)
    (hfit : yh ≤ ys + 1) (buf : List Byte) : loadPartialImageActions c xs xw ys yh buf =
      areaActions c xs (xs + (xw - 1)) ys (ys - (yh - 1)) ++ loadImageActions c buf := by
  rw [loadPartialImageActions, windowYEnd_eq h1 hfit, Int.toNat_natCast, windowXEnd]

/-- The busy-wait of LOAD_PARTIAL_IMAGE is not POWER_ON's (R238). -/
theorem start_loadPartialImage_powerOnWait (xs xw ys yh : Half) (buf : List Byte) (s : State) :
    (start (.loadPartialImage xs xw ys yh buf) s).context.powerOnWait = false := by
  simp [State.context, requestOf, encode]

/-- Settles O24: the window of the region, then the image; its end row is within the panel, so it has nine bits too. -/
theorem loadPartialImageCompletes : Obligations.LoadPartialImageCompletes := by
  intro xs xw ys yh buf s ev rest hs hc hsize hlen hxw hyh hfit hx hy ha
  obtain ⟨-, -, -, hmax⟩ := hsize
  let i := Instr.loadPartialImage xs xw ys yh buf
  let xe := xs.toNat + (xw.toNat - 1)
  let ye := ys.toNat - (yh.toNat - 1)
  have hys : ys.toNat < 512 := Nat.lt_succ_of_le (hy.trans hmax)
  have hye : ye < 512 := (Nat.sub_le _ _).trans_lt hys
  have hcheck : checkOf i s = none := checkPartial_of_fits hlen hxw hyh hfit hx hy
  have hseq : sequenceOf i s = areaActions s.params.commands xs.toNat xe ys.toNat ye ++
      loadImageActions s.params.commands buf := loadPartialImageActions_of_fits _ _ _ hyh hfit buf
  have hacts : s.answers (sequenceOf i s) ev rest := by
    rw [hseq]
    simpa [areaActions, loadImageActions, packXWindow, packYWindow, packXCounter, packYCounter, busyWait] using ha
  let t := (start i s).afterArea xs.toNat xe ys.toNat ye
  have hideal : ((start i s).recordAll ((sequenceOf i s).map Action.ideal)).sansTrace = t.afterImage.sansTrace := by
    rw [hseq]
    exact sansTrace_append (ideal_area (s := start i s) hc hys hye) (ideal_image (s := t) hc buf)
  have hwait : t.context.powerOnWait = false := start_loadPartialImage_powerOnWait xs xw ys yh buf s
  rw [exec_of_carries (i := i) rfl nofun rfl hs hcheck hacts hideal, State.afterImage, hwait]
  simp [t, State.afterArea, hs.2, xe, ye]

end Sys2Proof.Machine
end

section
/-! PROOFS. The statement about the waveform tables (spec/43_waveform_tables.md R193): the bytes a carried sequence
sends depend on its actions alone, a request that ends with OK has carried its sequence, and that sequence is the same
as long as no INIT comes. -/

namespace Sys2Proof.Machine

/-! ### The bytes a carried sequence sends (R13, R73, R262) -/

theorem sentBytes_cons (e : Event) (es : List Event) : sentBytes (e :: es) = sentBytes [e] ++ sentBytes es := by
  cases e with
  | send b a => cases a <;> rfl
  | _ => rfl

/-- However an action is performed, it sends what its ideal event sends; a byte read is none sent. -/
theorem sentBytes_of_performedBy {a : Action} {e : Event} (h : a.performedBy e = true) :
    sentBytes [e] = sentBytes [a.ideal] := by
  cases a with
  | read =>
    cases e with
    | read a' => rfl
    | _ => exact absurd h Bool.false_ne_true
  | _ => exact congrArg (fun e => sentBytes [e]) (of_decide_eq_true h)

/-- A call that is to be made again has sent nothing (R262, R263). -/
theorem sentBytes_of_retriedBy {a : Action} {e : Event} (h : a.retriedBy e = true) : sentBytes [e] = [] := by
  cases a with
  | send | read | poll => rw [of_decide_eq_true h]; rfl
  | pin | delay => exact absurd h Bool.false_ne_true

/-- Whatever the retries and the bytes read, a carried sequence sends what its shortest trace sends. -/
theorem sentBytes_of_carries {acts : List Action} {ev : List Event} (h : carries acts ev = true) :
    sentBytes ev = sentBytes (acts.map Action.ideal) := by
  induction ev generalizing acts with
  | nil =>
    cases acts with
    | nil => rfl
    | cons a as => simp [carries] at h
  | cons e es ih =>
    cases acts with
    | nil => simp [carries] at h
    | cons a as =>
      simp only [carries, Bool.or_eq_true, Bool.and_eq_true] at h
      obtain ⟨hp, hc⟩ | ⟨hr, hc⟩ := h
      · rw [sentBytes_cons, sentBytes_of_performedBy hp, ih hc, List.map_cons, ← sentBytes_cons]
      · rw [sentBytes_cons, sentBytes_of_retriedBy hr, ih hc, List.nil_append]

theorem sentBytes_ideal_exchangeAll (bs : List Byte) (acts : List Action) :
    sentBytes ((exchangeAll bs ++ acts).map Action.ideal) = bs ++ sentBytes (acts.map Action.ideal) := by
  induction bs with
  | nil => rfl
  | cons b bs ih => exact congrArg (b :: ·) ih

/-- A transfer with payload sends its opcode and then the payload (R272). -/
theorem sentBytes_ideal_cmdString (op : Byte) (bs : List Byte) :
    sentBytes ((cmdString op bs).map Action.ideal) = op :: bs := by
  have h := sentBytes_ideal_exchangeAll bs [.pin .cs true false]
  simpa [cmdString, exchange, Action.ideal, sentBytes] using h

/-! ### A request that ends with OK has carried its sequence (R43, R303, R331) -/

theorem carries_of_settle_ok {acts : List Action} {s : State} {r : Running} (hq : s.seq = .exec r)
    (hidle : (settle complete (runActions acts s)).seq = .idle)
    (hok : (settle complete (runActions acts s)).status = .ok) :
    ∃ ev, (settle complete (runActions acts s)).trace = s.trace ++ ev ∧ carries acts ev = true := by
  obtain ⟨ev, rest, hc, -, h⟩ | ⟨x, ev, rest, n, -, -, h⟩ | ⟨ev, rest, n, -, -, h⟩ | ⟨x, ev, rest, n, -, -, h⟩ :=
    runActions_cases acts s <;> rw [h] at hidle hok ⊢
  · exact ⟨ev, after_trace s ev rest acts.length, hc⟩
  · exact Status.noConfusion hok
  · rw [settle, after_seq, hq] at hidle
    exact Seq.noConfusion hidle
  · rw [settle, hq] at hidle
    exact Seq.noConfusion hidle

/-- A host operation but INIT that passes its check and ends with OK: its events carry its sequence to the end. -/
theorem carries_of_exec_ok {i : Instr} {q : Request} {s t : State} (henc : encode s.params.commands i = .request q)
    (hi : ∀ p, i ≠ .init p) (hw : i.wellFormed s.params.commands = true) (hs : s.accepting)
    (hcheck : checkOf i s = none) (h : exec i s = .next t) (hidle : t.seq = .idle) (hok : t.status = .ok) :
    ∃ ev, t.trace = s.trace ++ ev ∧ carries (sequenceOf i s) ev = true := by
  simp only [exec_eq_hostOperation henc hi, hostOperation, hs.2, hw, if_true, hs.1, execute, hcheck] at h
  cases h
  exact carries_of_settle_ok (start_seq s i) hidle hok

/-! ### Between two INITs every sequence stays the same (R39, R40, R193) -/

/-- Without an INIT, LIFE and what the sequences are made from stay as they are. -/
theorem execAll_keeps_sequences {is : List Instr} {s u : State} (hi : ∀ i ∈ is, ∀ p, i ≠ .init p)
    (h : execAll is s = some u) : u.life = s.life ∧ ∀ i, sequenceOf i u = sequenceOf i s := by
  induction is generalizing s with
  | nil => cases h; exact ⟨rfl, fun _ => rfl⟩
  | cons i is ih =>
    obtain ⟨hhead, htail⟩ := List.forall_mem_cons.mp hi
    cases hexec : exec i s with
    | next t =>
      simp only [execAll, hexec] at h
      obtain ⟨hw, hh, hF, hP, hlife, hparams, -⟩ := onlyInitWritesOwnedRegisters i s t hhead hexec
      obtain ⟨hlife', hseq⟩ := ih htail h
      exact ⟨hlife'.trans hlife, fun j => (hseq j).trans (sequenceOf_congr j hw hh hF hP hparams)⟩
    | fault x => simp [execAll, hexec] at h
    | refused x => simp [execAll, hexec] at h

/-! ### The table loads (R190, R191, R193) -/

section
variable {load : Instr} (hload : load = .loadFullLut ∨ load = .loadPartialLut)
include hload

theorem sequenceOf_lutLoad (s : State) : sequenceOf load s =
    cmdString (s.opc .writeLutRegister) (if load = .loadFullLut then s.lutF else s.lutP) := by
  obtain rfl | rfl := hload <;> rfl

/-- A table load that ends with OK has sent what its sequence sends. -/
theorem sentBytes_of_lutLoad {s t : State} (hs : s.accepting) (h : exec load s = .next t) (hidle : t.seq = .idle)
    (hok : t.status = .ok) :
    ∃ ev, t.trace = s.trace ++ ev ∧ sentBytes ev = sentBytes ((sequenceOf load s).map Action.ideal) := by
  have hcarried : ∃ ev, t.trace = s.trace ++ ev ∧ carries (sequenceOf load s) ev = true := by
    obtain rfl | rfl := hload <;> exact carries_of_exec_ok rfl nofun rfl hs rfl h hidle hok
  obtain ⟨ev, htrace, hc⟩ := hcarried
  exact ⟨ev, htrace, sentBytes_of_carries hc⟩

end

/-- Settles O53: each load sends what its sequence sends, and the requests from the first load to the second, with no
INIT among them, leave that sequence as it is. -/
theorem lutLoadsAreIdempotent : Obligations.LutLoadsAreIdempotent := by
  intro load between s t u v hload hbetween hs ht htidle htok hu huidle hv hvidle hvok
  have hne : ∀ p, load ≠ .init p := by obtain rfl | rfl := hload <;> exact nofun
  have hall : execAll (load :: between) s = some u := by simpa only [execAll, ht] using hu
  obtain ⟨hlife, hseq⟩ := execAll_keeps_sequences (List.forall_mem_cons.mpr ⟨hne, hbetween⟩) hall
  obtain ⟨ev, htrace, hsent⟩ := sentBytes_of_lutLoad hload hs ht htidle htok
  obtain ⟨ev', hvtrace, hsent'⟩ := sentBytes_of_lutLoad hload ⟨hlife.trans hs.1, huidle⟩ hv hvidle hvok
  have htable : sentBytes ev = s.opc .writeLutRegister :: (if load = .loadFullLut then s.lutF else s.lutP) := by
    rw [hsent, sequenceOf_lutLoad hload, sentBytes_ideal_cmdString]
  refine ⟨ev, ev', htrace, hvtrace, by rw [hsent, hsent', hseq], htable, fun hF hP => ?_⟩
  rw [htable, List.length_cons]
  split
  · rw [hF]
  · rw [hP]

end Sys2Proof.Machine
end

section
/-! PROOFS. Pixel data transfer (spec/44_pixel_transfer.md R200 to R216): LOAD_IMAGE to its end, what its busy-wait
allows before BUSY is low and while BUSY stays high, and the errors that end LOAD_PARTIAL_IMAGE before any port
action. -/

namespace Sys2Proof.Machine

/-! ### LOAD_IMAGE to its end (R200 to R204) -/

/-- The busy-wait of LOAD_IMAGE is not POWER_ON's (R238). -/
theorem start_loadImage_powerOnWait (buf : List Byte) (s : State) :
    (start (.loadImage buf) s).context.powerOnWait = false := rfl

/-- Settles O22: the sequence is a busy-wait and the image, whatever its length. -/
theorem loadImageCompletes : Obligations.LoadImageCompletes := by
  intro buf s ev rest hs hc ha
  have hideal := ideal_image (s := start (.loadImage buf) s) hc buf
  rw [exec_of_carries (i := .loadImage buf) rfl nofun rfl hs rfl ha hideal, State.afterImage,
    start_loadImage_powerOnWait]
  simp [hs.2]

/-! ### What comes before BUSY is low (R201) -/

/-- Every event but a POLL comes after a POLL answered low. -/
def PollsLowFirst (ev : List Event) : Prop :=
  ∀ before e after, ev = before ++ e :: after → (∀ a, e ≠ .poll a) → Event.poll (.ok false) ∈ before

theorem pollsLowFirst_nil : PollsLowFirst [] := by
  intro before e after h
  simp at h

/-- A POLL may come first, whatever its answer. -/
theorem PollsLowFirst.cons_poll {ev : List Event} (h : PollsLowFirst ev) (a : PollAnswer) :
    PollsLowFirst (.poll a :: ev) := by
  intro before e after hev he
  cases before with
  | nil =>
    obtain ⟨rfl, -⟩ := List.cons.inj hev
    exact absurd rfl (he a)
  | cons b before =>
    obtain ⟨-, hev⟩ := List.cons.inj hev
    exact List.mem_cons_of_mem b (h before e after hev he)

/-- After a POLL answered low anything may come. -/
theorem pollsLowFirst_cons_low (ev : List Event) : PollsLowFirst (.poll (.ok false) :: ev) := by
  intro before e after hev he
  cases before with
  | nil =>
    obtain ⟨rfl, -⟩ := List.cons.inj hev
    exact absurd rfl (he _)
  | cons b before =>
    obtain ⟨rfl, -⟩ := List.cons.inj hev
    exact List.mem_cons_self

/-- A sequence that begins with a busy-wait polls BUSY low first: a high answer is followed by the next POLL, an error
by nothing, since no transfer is open (R273, R275). -/
theorem runActions_pollsLowFirst (as : List Action) (s : State) :
    ∃ ev, (runActions (.poll :: as) s).state.trace = s.trace ++ ev ∧ PollsLowFirst ev := by
  induction hp : s.env.polls generalizing s with
  | nil =>
    have hnone : Action.poll.unanswered s.env = true := by simp [Action.unanswered, hp]
    rw [runActions_cons, perform_of_unanswered hnone]
    exact ⟨[], (List.append_nil _).symm, pollsLowFirst_nil⟩
  | cons a polls ih =>
    let env : Env := { s.env with polls := polls }
    have hs : s.env = Env.answer (.poll a) env := by simp only [env, Env.answer, ← hp]
    match a with
    | .ok false =>
      rw [runActions_performed (e := .poll (.ok false)) rfl hs]
      obtain ⟨ev, hev⟩ := runActions_trace as
        { State.record { s with env := env } (.poll (.ok false)) with seq := s.seq.advance }
      exact ⟨.poll (.ok false) :: ev, by rw [hev]; simp, pollsLowFirst_cons_low ev⟩
    | .ok true =>
      rw [runActions_retried (e := .poll (.ok true)) rfl hs]
      obtain ⟨ev, hev, hlow⟩ := ih (State.record { s with env := env } (.poll (.ok true))) (by simp [env])
      exact ⟨.poll (.ok true) :: ev, by simp [hev], hlow.cons_poll _⟩
    | .err x =>
      rw [runActions_cons, perform_of_failedBy (e := .poll (.err x)) (x := x) (by simp [Action.failedBy]) hs]
      exact ⟨[.poll (.err x)], rfl, pollsLowFirst_nil.cons_poll _⟩

/-- Settles O23: a refused LOAD_IMAGE has no event, and an accepted one begins with its busy-wait. -/
theorem loadImagePollsLowFirst : Obligations.LoadImagePollsLowFirst := by
  intro buf s hq
  rw [exec_of_idle (i := .loadImage buf) rfl hq, presented]
  split
  · exact ⟨_, [], rfl, (List.append_nil _).symm, pollsLowFirst_nil⟩
  · obtain ⟨ev, hev, hlow⟩ := runActions_pollsLowFirst (cmdString (s.opc .writeRam) buf) (start (.loadImage buf) s)
    exact ⟨_, ev, resume_start (i := .loadImage buf) rfl rfl, (settle_complete_trace _).trans hev, hlow⟩

/-! ### While BUSY stays high (R276, R313) -/

/-- The events of `k` samples of BUSY that read high. -/
def busySamples (k : Nat) : List Event := List.replicate k (.poll (.ok true))

theorem giving_busySamples (k : Nat) (env : Env) :
    Env.giving (busySamples k) env = { env with polls := List.replicate k (.ok true) ++ env.polls } := by
  induction k with
  | zero => rfl
  | succ k ih => rw [busySamples, List.replicate_succ, giving_cons, ← busySamples, ih]; rfl

/-- Samples that read high leave a busy-wait where it is, and it waits for the next one. -/
theorem stalls_busySamples {env : Env} (h : env.polls = []) (as : List Action) (k : Nat) :
    stalls env (.poll :: as) (busySamples k) 0 = true := by
  induction k with
  | zero => simp [busySamples, stalls, Action.unanswered, h]
  | succ k ih =>
    rw [busySamples, List.replicate_succ, ← busySamples, stalls, ih]
    rfl

/-- Samples that read high change nothing but the trace (R47, R238). -/
theorem recordAll_busySamples (k : Nat) (s : State) :
    s.recordAll (busySamples k) = { s with trace := s.trace ++ busySamples k } := by
  induction k generalizing s with
  | zero => simp [busySamples]
  | succ k ih =>
    have hrecord : s.record (.poll (.ok true)) = { s with trace := s.trace ++ [.poll (.ok true)] } := rfl
    rw [busySamples, List.replicate_succ, ← busySamples, recordAll_cons, hrecord, ih]
    simp

/-- Settles O45: the accepted request stalls on its first action, the busy-wait, with only the samples recorded. -/
theorem loadImageHangsWhileBusy : Obligations.LoadImageHangsWhileBusy := by
  intro buf k s hs hpolls
  let rest : Env := { s.env with polls := [] }
  have henv : s.env = Env.giving (busySamples k) rest := by
    rw [giving_busySamples, List.append_nil, ← hpolls]
  have hstall : stalls rest (sequenceOf (.loadImage buf) s) (busySamples k) 0 = true := stalls_busySamples rfl _ k
  have hexec : exec (.loadImage buf) s = .next ((start (.loadImage buf) s).after (busySamples k) rest 0) :=
    hostOperation_of_stalls rfl hs rfl henv hstall
  rw [hexec, after_zero, recordAll_busySamples]
  rfl

/-! ### The checks of LOAD_PARTIAL_IMAGE (R210 to R214) -/

theorem checkPartial_of_wrong_length {xs xw ys yh len : Nat} (s : State) (h : len ≠ xw * yh) :
    checkPartial xs xw ys yh len s = some .lengthError :=
  if_pos h

/-- A region that does not fit fails its size check, its negative end row, or the bounds of its derived window. -/
theorem checkPartial_of_not_fits {s : State} {xs xw ys yh len : Nat} (hlen : len = xw * yh)
    (h : xw = 0 ∨ yh = 0 ∨ ys + 1 < yh ∨ s.bw < xs + (xw - 1) ∨ s.h.toNat < ys) :
    checkPartial xs xw ys yh len s = some .boundsError := by
  rw [checkPartial, if_neg (not_not.mpr hlen)]
  by_cases hsize : xw = 0 ∨ yh = 0
  · exact if_pos hsize
  rw [if_neg hsize]
  by_cases hrow : windowYEnd ys yh < 0
  · exact if_pos hrow
  rw [if_neg hrow]
  refine checkArea_of_not_within ?_
  rintro ⟨-, hxe, hys, -⟩
  simp only [windowXEnd, windowYEnd] at hxe hrow
  omega

/-- Settles O25: each error is the check's, which comes before any port action. -/
theorem loadPartialImageChecks : Obligations.LoadPartialImageChecks := by
  intro xs xw ys yh buf s hs
  exact ⟨fun hlen => hostOperation_of_check rfl hs (checkPartial_of_wrong_length s hlen),
    fun hlen hout => hostOperation_of_check rfl hs (checkPartial_of_not_fits hlen hout)⟩

end Sys2Proof.Machine
end

section
/-! PROOFS. What is left of the update-sequence operations (spec/45_refresh_sequence.md R240 to R243): the length check
of SHOW_FULL_SCREEN_IMAGE, a request that ends with a transport error, and the hazard that every completed
SHOW_FULL_SCREEN_IMAGE has, whatever the height of the panel. -/

namespace Sys2Proof.Machine

/-! ### The length check of SHOW_FULL_SCREEN_IMAGE (R241) -/

/-- Settles O31: the check decides; past it STATUS is OK, as before or a TransportError. -/
theorem showFullScreenImageLength : Obligations.ShowFullScreenImageLength := by
  intro img s hs
  refine ⟨fun hne => hostOperation_of_check rfl hs (if_pos hne), fun hlen hstatus => ?_⟩
  have hcheck : checkFull img.length s = none := if_neg (not_not.mpr hlen)
  obtain ⟨t, hexec, h⟩ := hostOperation_status_of_unchecked (i := .showFullScreenImage img)
    (acts := showFullScreenActions img) rfl hs hcheck
  refine ⟨t, hexec, ?_⟩
  obtain h | h | ⟨x, h⟩ := h <;> rw [h]
  · exact nofun
  · exact hstatus
  · exact nofun

/-! ### A host operation but INIT that its check lets through (R307) -/

section
variable {i : Instr} {q : Request} {s t : State} (henc : encode s.params.commands i = .request q)
  (hi : ∀ p, i ≠ .init p) (hw : i.wellFormed s.params.commands = true) (hs : s.accepting)
  (hcheck : checkOf i s = none)
include henc hi hw hs hcheck

theorem exec_of_unchecked : exec i s = .next (settle complete (runActions (sequenceOf i s) (start i s))) := by
  rw [exec_eq_hostOperation henc hi]
  simp only [hostOperation, hs.2, hw, if_true, hs.1, execute, hcheck]

/-- It ends with OK only if the environment answers its sequence to the end, and then leaves the ghost state that the
shortest trace of the sequence leaves. -/
theorem ghost_of_exec_ok (h : exec i s = .next t) (hidle : t.seq = .idle) (hok : t.status = .ok) :
    t.ghost = ((start i s).recordAll ((sequenceOf i s).map Action.ideal)).ghost := by
  obtain ⟨ev, rest, hc, henv, -⟩ | ⟨x, ev, rest, n, -, -, hrun⟩ | ⟨ev, rest, n, -, -, hrun⟩ |
    ⟨x, ev, rest, n, -, -, hrun⟩ := runActions_cases (sequenceOf i s) (start i s)
  · rw [exec_of_carries henc hi hw hs hcheck ⟨henv, hc⟩ rfl] at h
    cases h
    rfl
  all_goals
    rw [exec_of_unchecked henc hi hw hs hcheck, hrun] at h
    cases h
  · cases hok
  · cases hidle
  · cases hidle

end

/-! ### A transport error ends its request (R303, R308, R309) -/

/-- No event of an operation but INIT drives RST (R42, R155). -/
theorem events_ne_rst_of_exec {i : Instr} {s t : State} {ev : List Event} (hi : ∀ p, i ≠ .init p)
    (h : exec i s = .next t) (htrace : t.trace = s.trace ++ ev) : ∀ e ∈ ev, ∀ v a, e ≠ .pin .rst v a := by
  obtain ⟨ev', htrace', hev, -⟩ := onlySomeOperationsTouchRstAndBusy i s t h
  obtain rfl : ev' = ev := List.append_cancel_left (htrace'.symm.trans htrace)
  exact fun e he => (hev hi e he).1

/-- Settles O41: the sequence fails where its trace breaks, CS is safe there, and none of its events drives RST. -/
theorem transportErrorEndsRequest : Obligations.TransportErrorEndsRequest := by
  intro i q s x ev rest henc hi hw hs hcheck henv hbreaks
  obtain ⟨n, hrun⟩ : ∃ n, runActions (sequenceOf i s) (start i s) = .failed x ((start i s).after ev rest n) :=
    runActions_of_breaks hbreaks henv
  have hexec : exec i s = .next (abort (.transportError x) ((start i s).after ev rest n)) := by
    rw [exec_of_unchecked henc hi hw hs hcheck, hrun, settle]
  have hrst := events_ne_rst_of_exec hi hexec (after_trace (start i s) ev rest n)
  have hcs (h : s.csL ≠ .low) : ((start i s).after ev rest n).csL ≠ .low := by
    have hsafe := runActions_standsSafely _ (start i s) ((keepsCs_sequenceOf i s).csSafe h)
    rwa [hrun] at hsafe
  refine ⟨_, hexec, rfl, rfl, rfl, rfl, after_trace _ ev rest n, after_env _ ev rest n, ?_, ?_, hcs, ?_⟩
  · constructor <;> simp [State.after]
  · exact recordAll_rstL hrst _
  · simp [abort, State.after, start, requestOf_eq henc]

/-! ### The recipe on a panel of any height (R16, R240, R352) -/

theorem record_withH (s : State) (h : Half) (e : Event) :
    State.record { s with h := h } e = { s.record e with h := h } := by
  simp only [State.record, State.latch]
  (repeat' split) <;> rfl

/-- No port action reads the panel's height: it decides only which actions a sequence has (R33). -/
theorem recordAll_withH (es : List Event) (s : State) (h : Half) :
    State.recordAll { s with h := h } es = { s.recordAll es with h := h } := by
  induction es generalizing s with
  | nil => rfl
  | cons e es ih => simp only [recordAll_cons, record_withH, ih]

/-- Nine bits of a value go over the wire (R16). -/
theorem split9_mod (v : Nat) : split9 (v % 512) = split9 v := by
  have hlow : BitVec.ofNat 8 (v % 512) = BitVec.ofNat 8 v := by
    apply BitVec.eq_of_toNat_eq
    simp only [BitVec.toNat_ofNat]
    omega
  have hhigh : v % 512 / 256 % 2 = v / 256 % 2 := by omega
  simp [split9, Config.val9Bits, hlow, hhigh]

/-- The least height whose last row has the same nine bits as that of `h`. -/
def wireHeight (h : Half) : Half := BitVec.ofNat 16 ((h.toNat - 1) % 512 + 1)

theorem wireHeight_last (h : Half) : (wireHeight h).toNat - 1 = (h.toNat - 1) % 512 := by
  simp only [wireHeight, BitVec.toNat_ofNat]
  omega

theorem showFullScreenActions_wireHeight (image : List Byte) (s : State) :
    showFullScreenActions image { s with h := wireHeight s.h } = showFullScreenActions image s := by
  simp only [showFullScreenActions, areaActions, packYWindow, packYCounter, wireHeight_last, split9_mod]
  rfl

theorem sansTrace_ghost (s : State) : s.sansTrace.ghost = s.ghost := rfl

/-- The recipe's power-off is in the UPD_WINDOW that its full update opens, and the update finds the table that the
recipe has loaded first. -/
theorem ghost_of_recipe {s : State} {q : Running} (hc : s.params.commands.legal = true) (hq : s.seq = .exec q)
    (hop : descOp q.req.desc = 0x09#8) (hlut : s.lutF.length = 30) (image : List Byte) :
    let g := (s.recordAll ((showFullScreenActions image s).map Action.ideal)).ghost
    g.hazSrc = true ∧ g.hazStrict = true ∧ g.lutMismatch = s.ghost.lutMismatch := by
  let u : State := { s with h := wireHeight s.h }
  have hrows : u.h.toNat - 1 < 512 := (wireHeight_last s.h).trans_lt (Nat.mod_lt _ (by decide))
  have hghost : (s.recordAll ((showFullScreenActions image s).map Action.ideal)).ghost =
      ((u.afterPowerUp u.lutF).afterDrawing u.bw u.h.toNat).afterShowing.ghost := by
    have hideal := congrArg State.ghost (ideal_recipe (s := u) hc hq hop hlut hrows image)
    rw [showFullScreenActions_wireHeight, recordAll_withH, sansTrace_ghost, sansTrace_ghost] at hideal
    exact hideal
  simp [hghost, State.afterPowerUp, State.afterDrawing, State.afterShowing, State.afterLutLoad, State.afterActivation,
    State.afterBusyWait, State.afterArea, State.afterImage, State.afterOwnNop, Ghost.observePoll, lutMismatches,
    Config.maskUpdateFull, Config.patternBit, u]

/-- Settles O54: a completed SHOW_FULL_SCREEN_IMAGE has passed its length check, and leaves what its recipe leaves. -/
theorem successfulShowHasHazard : Obligations.SuccessfulShowHasHazard := by
  intro img s t hs hc hlut h hidle hok
  have hlen : img.length = byteWidth s.w.toNat * s.h.toNat := by
    by_contra hne
    rw [(showFullScreenImageLength img s hs).1 hne] at h
    cases h
    cases hok
  have hcheck : checkOf (.showFullScreenImage img) s = none := if_neg (not_not.mpr hlen)
  have hop : descOp (requestOf s.params.commands (.showFullScreenImage img)).desc = 0x09#8 := descOp_mkDesc _ _ _ _ _
  rw [ghost_of_exec_ok (i := .showFullScreenImage img) rfl nofun rfl hs hcheck h hidle hok]
  exact ghost_of_recipe (s := start (.showFullScreenImage img) s) hc rfl hop hlut img

end Sys2Proof.Machine
end

section
/-! PROOFS. What is left of the primitives (spec/46_primitives.md R271, R273): the data transfer, the RestoreCS that an
error waits for, and the last event of every transfer that has ended. -/

namespace Sys2Proof.Machine

/-! ### The data transfer (R271) -/

/-- Settles O33: the operation is its data transfer, which leaves what its shortest trace leaves. -/
theorem writeDataCompletes : Obligations.WriteDataCompletes := by
  intro b s ev rest hs ha
  have hexec : exec (.writeData b) s = hostOperation (.writeData b) checkNothing (fun _ => data b) s := rfl
  rw [hexec, hostOperation_of_carries rfl hs rfl ha (ideal_data (start (.writeData b) s) b)]
  simp [hs.2]

/-! ### RestoreCS answered (R273, R308) -/

/-- RestoreCS fails with the error it was called for, whatever the environment answers it. -/
theorem restoreCS_of_answered {s : State} {a : PinAnswer} {rest : List PinAnswer} (x : ErrVal)
    (hp : s.env.pins = a :: rest) :
    restoreCS x s = .failed x (State.record { s with env := { s.env with pins := rest } } (.pin .cs true a)) := by
  simp only [restoreCS, hp]

/-- Settles O46: going on with the request is RestoreCS, which is answered. -/
theorem restoreCsEndsWithFirstError : Obligations.RestoreCsEndsWithFirstError := by
  intro s r i x a rest hq hop hf hp
  have hstep : step s = .next (abort (.transportError x)
      (State.record { s with env := { s.env with pins := rest } } (.pin .cs true a))) := by
    rw [step_of_exec hq, resume_of_failing hq hop hf, restoreCS_of_answered x hp, settle]
  refine ⟨_, hstep, rfl, rfl, rfl, rfl, rfl, rfl, rfl, ?_⟩
  constructor <;> simp

/-! ### A transfer that has ended has driven CS high (R273) -/

/-- The last event is CS driven high, whatever its answer. -/
def EndsWithCsHigh (ev : List Event) : Prop := ∃ before a, ev = before ++ [.pin .cs true a]

theorem endsWithCsHigh_singleton (a : PinAnswer) : EndsWithCsHigh [.pin .cs true a] := ⟨[], a, rfl⟩

theorem EndsWithCsHigh.cons {ev : List Event} (h : EndsWithCsHigh ev) (e : Event) : EndsWithCsHigh (e :: ev) := by
  obtain ⟨before, a, rfl⟩ := h
  exact ⟨e :: before, a, rfl⟩

/-- The state after events that end so: CS is high, or at X if that last call failed (R42). -/
theorem EndsWithCsHigh.after {ev : List Event} (h : EndsWithCsHigh ev) (s : State) (rest : Env) (n : Nat) :
    ∃ before a, (s.after ev rest n).trace = s.trace ++ before ++ [.pin .cs true a] ∧
      (s.after ev rest n).csL ≠ .low := by
  obtain ⟨before, a, rfl⟩ := h
  refine ⟨before, a, by simp [after_trace], ?_⟩
  rw [State.after, recordAll_append]
  exact latchLevel_true_ne_low a

/-- An action inside a transfer that fails is followed by RestoreCS. -/
theorem endsWithCsHigh_of_restoredBy {a : Action} {es : List Event} (hg : a.guarded = true)
    (h : restoredBy a es = true) : EndsWithCsHigh es := by
  unfold restoredBy at h
  split at h
  · exact endsWithCsHigh_singleton _
  · next hfree => rw [hg] at hfree; cases hfree
  · cases h

/-- A complete trace of actions that end with CS high ends so. -/
theorem endsWithCsHigh_of_carries {as : List Action} {ev : List Event}
    (h : carries (as ++ [.pin .cs true false]) ev = true) : EndsWithCsHigh ev := by
  induction ev generalizing as with
  | nil => cases as <;> simp [carries] at h
  | cons e es ih =>
    cases as with
    | nil =>
      obtain ⟨rfl, hes⟩ : e = .pin .cs true .ok ∧ carries [] es = true := by
        simpa [carries, Action.performedBy, Action.retriedBy] using h
      cases es with
      | nil => exact endsWithCsHigh_singleton .ok
      | cons e' es' => cases hes
    | cons a as =>
      simp only [List.cons_append, carries, Bool.or_eq_true, Bool.and_eq_true] at h
      obtain ⟨-, h⟩ | ⟨-, h⟩ := h
      · exact (ih h).cons e
      · exact (ih (as := a :: as) h).cons e

/-- A trace that fails within a transfer ends so: the failed action called RestoreCS, or is the final CS high itself. -/
theorem endsWithCsHigh_of_breaks {x : ErrVal} {as : List Action} {ev : List Event}
    (hg : as.all Action.guarded = true) (h : breaks x (as ++ [.pin .cs true false]) ev = true) : EndsWithCsHigh ev := by
  induction ev generalizing as with
  | nil => cases as <;> simp [breaks] at h
  | cons e es ih =>
    cases as with
    | nil =>
      obtain ⟨rfl, hes⟩ : e = .pin .cs true (.err x) ∧ restoredBy (.pin .cs true false) es = true := by
        simpa [breaks, Action.performedBy, Action.retriedBy, Action.failedBy] using h
      cases es with
      | nil => exact endsWithCsHigh_singleton (.err x)
      | cons e' es' => cases hes
    | cons a as =>
      obtain ⟨ha, has⟩ : a.guarded = true ∧ as.all Action.guarded = true := by
        simpa only [List.all_cons, Bool.and_eq_true] using hg
      simp only [List.cons_append, breaks, Bool.or_eq_true, Bool.and_eq_true] at h
      obtain (⟨-, h⟩ | ⟨-, h⟩) | ⟨-, h⟩ := h
      · exact (ih has h).cons e
      · exact (ih hg h).cons e
      · exact (endsWithCsHigh_of_restoredBy ha h).cons e

/-- A call waited for is the call of one of the actions. -/
theorem lt_length_of_stalls {rest : Env} {acts : List Action} {ev : List Event} {n : Nat}
    (h : stalls rest acts ev n = true) : n < acts.length := by
  induction ev generalizing acts n with
  | nil => cases acts <;> cases n <;> simp [stalls] at h ⊢
  | cons e es ih =>
    cases acts with
    | nil => simp [stalls] at h
    | cons a as =>
      simp only [stalls, Bool.or_eq_true, Bool.and_eq_true] at h
      obtain ⟨-, h⟩ | h := h
      · exact ih h
      · cases n with
        | zero => cases h
        | succ m =>
          obtain ⟨-, h⟩ := Bool.and_eq_true_iff.mp h
          exact Nat.succ_lt_succ (ih h)

@[simp] theorem exchangeAll_guarded (bs : List Byte) : (exchangeAll bs).all Action.guarded = true := by
  simp [exchangeAll, exchange, Action.guarded]

/-- A transfer is actions whose failure calls RestoreCS, and then CS high (R270, R272, R273). -/
theorem transferActions_eq_guarded_append (op : Byte) (p : Payload) :
    ∃ as, transferActions op p = as ++ [.pin .cs true false] ∧ as.all Action.guarded = true := by
  cases p with
  | none => exact ⟨_, rfl, rfl⟩
  | some bs =>
    refine ⟨_, rfl, ?_⟩
    simp only [List.all_append, exchangeAll_guarded]
    rfl

/-- A command that answers a next state has run its transfer, with no error waiting (log entry 9). -/
theorem commandTransfer_eq_next {k : Command} {p : Payload} {r : Running} {s u : State} (hq : s.seq = .exec r)
    (h : commandTransfer k p s = .next u) :
    r.failing = none ∧ u = settle id (runActions (transferActions (s.opc k) p) s) := by
  cases hf : r.failing with
  | some x => rw [commandTransfer_of_failing k p hq hf] at h; cases h
  | none =>
    simp only [commandTransfer, hq, hf, Host.Outcome.next.injEq] at h
    exact ⟨rfl, h.symm⟩

/-- Settles O43: a transfer that is performed whole or fails has a trace that ends with CS high, and one that waits has
not ended. -/
theorem transfersEndWithCsHigh : Obligations.TransfersEndWithCsHigh := by
  intro i t r s u henc hq hexec hended
  obtain ⟨k, rfl, hop⟩ := instr_of_encode henc
  rw [exec_eq_commandTransfer] at hexec
  obtain ⟨hf, rfl⟩ := commandTransfer_eq_next hq hexec
  obtain ⟨as, hacts, hg⟩ := transferActions_eq_guarded_append t.opcode t.payload
  have hopc : s.opc k = t.opcode := hop.symm
  rw [hopc, hacts]
  rw [hopc, hacts] at hended
  obtain ⟨ev, rest, hc, -, hrun⟩ | ⟨x, ev, rest, n, hb, -, hrun⟩ | ⟨ev, rest, n, hst, -, hrun⟩ |
    ⟨x, ev, rest, n, -, -, hrun⟩ := runActions_cases (as ++ [.pin .cs true false]) s <;> rw [hrun] at hended ⊢
  · exact (endsWithCsHigh_of_carries hc).after s rest _
  · exact (endsWithCsHigh_of_breaks hg hb).after s rest n
  · have hn := lt_length_of_stalls hst
    have hupc : n = (as ++ [Action.pin .cs true false]).length := by simpa [settle, after_seq, hq] using hended
    omega
  · simp [settle, hq, hf] at hended

end Sys2Proof.Machine
end

section
/-! PROOFS. Refusals (spec/60_exceptions.md R304, R305): the two causes, and the state that a refusal leaves. -/

namespace Sys2Proof.Machine

/-- A request that decodes to no operation is refused (R103, R304). -/
theorem takeRequest_of_illegal {s : State} {r : Request} {x : Reject}
    (hd : decodeRequest s.params.commands r = .error x) : takeRequest r s = .next (refuse s) := by
  simp only [takeRequest, hd]

/-- An operation other than INIT has no meaning while LIFE is UNINIT (R305). -/
theorem refuses_of_uninit {i : Instr} {s : State} (hl : s.life = .uninit) (hi : ∀ p, i ≠ .init p) :
    refuses i s = true := by
  simp [refuses_of_ne_init hi, hl]

/-- While LIFE is UNINIT a request that is not INIT is refused, whether or not it decodes (R304, R305). -/
theorem takeRequest_of_uninit {s : State} {r : Request} (hq : s.seq = .idle) (hl : s.life = .uninit)
    (hi : ∀ p, decodeRequest s.params.commands r ≠ .ok (.init p)) : takeRequest r s = .next (refuse s) := by
  cases hd : decodeRequest s.params.commands r with
  | error x => exact takeRequest_of_illegal hd
  | ok i =>
    have hne : ∀ p, i ≠ .init p := fun p hp => hi p (hd.trans (congrArg _ hp))
    rw [takeRequest_of_decodes hd, exec_of_idle (encode_of_decodeRequest hd) hq, presented,
      if_pos (refuses_of_uninit hl hne)]

/-- Settles O16: the step takes the request, and either cause refuses it. -/
theorem refusalChangesOnlyRefused : Obligations.RefusalChangesOnlyRefused := by
  intro s r rest hq hh hcause
  rw [step_of_idle_cons hq hh]
  obtain ⟨x, hd⟩ | ⟨hl, hi⟩ := hcause
  · exact takeRequest_of_illegal (s := { s with host := rest }) hd
  · exact takeRequest_of_uninit (s := { s with host := rest }) hq hl hi

end Sys2Proof.Machine
end

section
/-! PROOFS. The hazard predicates (spec/70_reset_and_hazards.md R352): every event that counts for HAZ_SRC counts for
HAZ_STRICT, and a step changes the ghost state by events and by the end of INIT only. -/

namespace Sys2Proof.Machine

/-- HAZ_SRC implies HAZ_STRICT for the trace so far (R352). -/
def Ghost.SrcImpliesStrict (g : Ghost) : Prop := g.hazSrc = true → g.hazStrict = true

/-! ### The events that count as hazards (R352) -/

/-- A legal table gives Nop an opcode of its own, so the byte HAZ_STRICT excepts is none that HAZ_SRC counts (R121). -/
theorem ne_nop_of_isHazardousCommand {c : CommandTable} (hc : c.legal = true) {b : Byte}
    (h : isHazardousCommand c b = true) : b ≠ c.opcode .nop := by
  simp only [isHazardousCommand, decide_eq_true_eq] at h
  obtain rfl | rfl | rfl := h <;> simp [CommandTable.opcode_inj hc]

namespace Ghost.SrcImpliesStrict
variable {g : Ghost} (h : g.SrcImpliesStrict)
include h

theorem commandByte {c : Context} (hc : c.commands.legal = true) (b : Byte) : (g.commandByte c b).SrcImpliesStrict := by
  intro hsrc
  obtain hsrc | ⟨hwindow, hb⟩ : g.hazSrc = true ∨ g.updWindow = true ∧ isHazardousCommand c.commands b = true := by
    simpa only [Ghost.commandByte, Bool.or_eq_true, Bool.and_eq_true] using hsrc
  · simp [Ghost.commandByte, h hsrc]
  · simp [Ghost.commandByte, hwindow, ne_nop_of_isHazardousCommand hc hb]

theorem resetPulse (a : PinAnswer) : (g.resetPulse a).SrcImpliesStrict := by
  intro hsrc
  obtain hsrc | hwindow : g.hazSrc = true ∨ g.updWindow = true := Bool.or_eq_true_iff.mp hsrc
  · simp [Ghost.resetPulse, h hsrc]
  · simp [Ghost.resetPulse, hwindow]

theorem intervalEnded (c : CommandTable) : (g.intervalEnded c).SrcImpliesStrict := by
  unfold Ghost.intervalEnded
  split
  · exact h
  · split <;> exact h

theorem observePin (c : CommandTable) (p : Pin) (v : Bool) (a : PinAnswer) :
    (g.observePin c p v a).SrcImpliesStrict := by
  cases p with
  | rst =>
    cases v with
    | true => exact h
    | false => exact h.resetPulse a
  | cs =>
    cases a with
    | err x => exact h
    | ok =>
      cases v with
      | true => exact h.intervalEnded c
      | false => exact h
  | dc => cases a <;> exact h

theorem observeSend {c : Context} (hc : c.commands.legal = true) (cs dc : Level) (b : Byte) (a : SendAnswer) :
    (g.observeSend c cs dc b a).SrcImpliesStrict := by
  cases a with
  | ok =>
    simp only [Ghost.observeSend]
    split
    · exact h.commandByte hc b
    · exact h
  | wouldblock => exact h
  | err x => exact h

theorem observeRead (c : Context) (dc : Level) (a : ReadAnswer) : (g.observeRead c dc a).SrcImpliesStrict := by
  cases a with
  | ok b =>
    simp only [Ghost.observeRead, Ghost.observeByteRead]
    split
    · exact h
    · split
      · exact h
      · cases dc <;> exact h
  | wouldblock => exact h
  | err x => exact h

theorem observePoll (c : Context) (a : PollAnswer) : (g.observePoll c a).SrcImpliesStrict := by
  obtain ⟨_ | _⟩ | x := a <;> exact h

theorem observe {c : Context} (hc : c.commands.legal = true) (cs dc : Level) (e : Event) :
    (g.observe c cs dc e).SrcImpliesStrict := by
  cases e with
  | pin p v a => exact h.observePin c.commands p v a
  | send b a => exact h.observeSend hc cs dc b a
  | read a => exact h.observeRead c dc a
  | poll a => exact h.observePoll c a
  | delay ms => exact h

end Ghost.SrcImpliesStrict

/-! ### A step -/

theorem recordAll_srcImpliesStrict {s : State} (hc : s.params.commands.legal = true) (h : s.ghost.SrcImpliesStrict)
    (ev : List Event) : (s.recordAll ev).ghost.SrcImpliesStrict := by
  induction ev generalizing s with
  | nil => exact h
  | cons e es ih => exact ih (by simpa using hc) (h.observe (by simpa using hc) s.csL s.dcL e)

/-- Going on with a request is events, and then at most the end of INIT, which keeps the predicates (R341). -/
theorem resume_srcImpliesStrict {s t : State} {r : Running} (hc : s.params.commands.legal = true)
    (h : s.ghost.SrcImpliesStrict) (hq : s.seq = .exec r) (ht : resume s = .next t) : t.ghost.SrcImpliesStrict := by
  obtain ⟨i, p, -, rfl, ev, rest, q, hp⟩ := resume_cases hq ht
  have hstate : p.state.ghost.SrcImpliesStrict := by
    rw [hp]
    exact recordAll_srcImpliesStrict (s := { s with env := rest }) hc h ev
  cases p with
  | done u => cases i <;> exact hstate
  | waiting u => exact hstate
  | failed x u => exact hstate

theorem presented_srcImpliesStrict {i : Instr} {s t : State} (hc : s.params.commands.legal = true)
    (h : s.ghost.SrcImpliesStrict) (ht : presented i s = .next t) : t.ghost.SrcImpliesStrict := by
  obtain ⟨-, rfl⟩ | ⟨-, st, -, rfl⟩ | ⟨-, -, ht⟩ := presented_cases ht
  · exact h
  · exact h
  · have hghost : (accepted i s).ghost = s.ghost := by cases i <;> rfl
    exact resume_srcImpliesStrict (s := start i (accepted i s)) (by simpa using hc) (by simpa [hghost] using h) rfl ht

/-- Settles O55, by what taking a request and going on with one can do. -/
theorem hazSrcImpliesHazStrict : Obligations.HazSrcImpliesHazStrict := by
  intro s t hc h ht
  change t.ghost.SrcImpliesStrict
  cases hq : s.seq with
  | exec r =>
    rw [step_of_exec hq] at ht
    exact resume_srcImpliesStrict hc h hq ht
  | idle =>
    cases hh : s.host with
    | nil =>
      rw [step_of_idle_nil hq hh] at ht
      cases ht
      exact h
    | cons r rest =>
      rw [step_of_idle_cons hq hh] at ht
      obtain htake | ⟨i, -, htake⟩ := takeRequest_cases (r := r) (s := { s with host := rest }) hq <;>
        rw [htake] at ht
      · cases ht
        exact h
      · exact presented_srcImpliesStrict (s := { s with host := rest }) hc h ht

end Sys2Proof.Machine
end
